-- ==== Sys2Proof/Word.lean ====
section
/-! DEFINITION. The words the part is made of: bytes, local time, and tables of a fixed number of like entries. -/

namespace Sys2Proof

/-- One byte of a port transaction. -/
abbrev Byte := BitVec 8

/-- Local time (R2): 32 bits wide, counting milliseconds, wrapping. -/
abbrev Time := BitVec 32

/-- The table of `n` entries whose entry `i` is `f i`. -/
def tabulate {α : Type} {n : Nat} (f : Fin n → α) : Vector α n :=
  ⟨⟨List.ofFn f⟩, by simp⟩

@[simp] theorem getElem_tabulate {α : Type} {n : Nat} (f : Fin n → α) (i : Nat) (h : i < n) :
    (tabulate f)[i] = f ⟨i, h⟩ := by
  simp [tabulate]

/-- The table of `n` entries that are all `a`. -/
def uniform {α : Type} (n : Nat) (a : α) : Vector α n := Vector.replicate n a

@[simp] theorem getElem_uniform {α : Type} {n : Nat} (a : α) (i : Nat) (h : i < n) :
    (uniform n a)[i] = a := by
  simp [uniform]

end Sys2Proof
end

