-- ==== Sys2Proof/Config.lean ====
section
/-! DEFINITION. What the part fixes once and for all, and the codes its reference leaves out. -/

namespace Sys2Proof.Config

/-- The part code that STATUS reports (R178). -/
def partCode : Nat := 0x4820

/-- Sample frames in one millisecond of show time (00_scope, Time). -/
def framesPerMs : Nat := 48

/-- The latest show time of a loaded cue or of an ARM, in ms (R6, R38). -/
def lastShowMs : Nat := 86399999

/-- The latest end of a show, in ms (R6). -/
def lastEndMs : Nat := 86400000

/-- The day limit, in sample frames (R16). -/
def dayLimit : Nat := 4147200000

/-- Records in the cue pool (R39). -/
def poolSize : Nat := 4096

/-- Blocks the audio block queue holds (R21). -/
def audioBlocks : Nat := 64

/-- Sample frames in the longest audio block (R20). -/
def blockFrames : Nat := 240

/-- Console claims the part holds (R59). -/
def claimLimit : Nat := 64

/-- The largest budget, in W (R161). -/
def budgetMax : Nat := 4000000

/-- The largest 32-bit count, at which ages and the skipped count stay (R49, R119, R155). -/
def count32Max : Nat := 4294967295

/-- The highest overrun count (R86). -/
def overrunMax : Nat := 65535

/-- The highest error count of a port (R173). -/
def errorMax : Nat := 255

/-- Debounce of ESTOP_N, in ms (R162). -/
def debounceMs : Nat := 10

/-- Frames the low mark is re-armed above LowMark (R36). -/
def lowMarkMargin : Nat := 2400

/-- Records the free-pool-low flag is armed above LowPool (R46). -/
def lowPoolMargin : Nat := 64

/-- Millimetres the low-water flag clears above LowLevelTrip (R160). -/
def lowWaterMargin : Nat := 50

/-- Capacities of a master port (R171). -/
def urgentPlaces : Nat := 4
/-- Places of the bulk queue (R171). -/
def bulkPlaces : Nat := 8
/-- Places of the outgoing queue (R171). -/
def outgoingPlaces : Nat := 16
/-- Places of the notice list (R171). -/
def noticePlaces : Nat := 32
/-- Notices one NOTICES removes (R182). -/
def noticesTaken : Nat := 16
/-- The longest request body, in bytes (R173). -/
def bodyMax : Nat := 1536

/-- Free constant: the kind bytes of the drive line's frames. R121 names the kinds and gives no code for one, so no
proof can see what these are (notes/assumptions/12). -/
opaque speedKindCode : Byte
/-- Free constant: the kind byte of a POWER frame (notes/assumptions/12). -/
opaque powerKindCode : Byte
/-- Free constant: the kind byte of a CLEAR frame (notes/assumptions/12). -/
opaque clearKindCode : Byte
/-- Free constant: the kind byte of a PROBE frame (notes/assumptions/12). -/
opaque probeKindCode : Byte
/-- Free constant: the kind byte of a STATE reply (notes/assumptions/12). -/
opaque stateKindCode : Byte
/-- Free constant: the kind byte of a REFUSED reply (notes/assumptions/12). -/
opaque refusedKindCode : Byte
/-- Free constant: the byte of a drive-reported state, by its place in the table of R121, counted from 0
(notes/assumptions/12). -/
opaque reportedStateCode : Nat → Byte

/-- Free value: what a four-byte position field carries for a number of 2^32 or more, which does not fit it. R23 lets an accepted
block end at exactly 2^32, and no rule states the field then (notes/assumptions/27). -/
opaque beyondField : Nat → BitVec 32

end Sys2Proof.Config
end

