-- ==== Sys2Proof/Syntax.lean ====
section
/-! DEFINITION. The commands of the block: one constructor of `Instr` for each row of spec/opcode_table.json, and the data a
command carries from outside the part. -/

namespace Sys2Proof

/-- The three master ports (00_scope; R176): port 0 SHOW, port 1 PLANT, port 2 CONSOLE. -/
inductive Port where
  | showPort
  | plantPort
  | consolePort
deriving DecidableEq, Repr

/-- The four output lines on which FSC keeps a line state (R81). -/
inductive Line where
  | drive
  | valve
  | fixtureA
  | fixtureB
deriving DecidableEq, Repr

/-- A channel 0–335 (R1). -/
abbrev Channel := Fin 336
/-- A pump P0–P15 and its drive (R1). -/
abbrev Pump := Fin 16
/-- A jet J0–J127 (R1). -/
abbrev Jet := Fin 128
/-- A fixture L0–L191 (R1). -/
abbrev Fixture := Fin 192
/-- A group 0–27 (R1, R78). -/
abbrev Group := Fin 28
/-- An entry number of the slot table (R78). -/
abbrev Slot := Fin 40

/-- What a drive reports of itself in a STATE frame (R121). -/
inductive Reported where
  | off
  | starting
  | ready
  | stopping
  | tripped
  | underLocal
deriving DecidableEq, Repr

/-- The five telemetry fields of a STATE frame (R121). The reported actual speed is a number of any size: DLC clamps it. -/
structure Telemetry where
  /-- Actual speed, per-mille of rated speed. -/
  speed : Nat
  /-- Motor current, 0.1 A. -/
  current : BitVec 16
  /-- Outlet pressure, kPa. -/
  pressure : BitVec 16
  /-- Temperature, °C, two's complement. -/
  temperature : BitVec 8
  /-- Drive fault code; 0 means no fault. -/
  faultCode : BitVec 8
deriving DecidableEq, Repr

/-- The kind of a frame that came in a reply window (R121, R122). -/
inductive ReplyKind where
  | state (reported : Reported) (telemetry : Telemetry)
  | refused
  | other
deriving DecidableEq, Repr

/-- One frame that came in a reply window: the address it carries, its kind and fields, and the check it carries (R121,
R122). -/
structure ReplyFrame where
  address : Nat
  kind : ReplyKind
  check : BitVec 16
deriving DecidableEq, Repr

/-- The commands, in the order of spec/opcode_table.json. A request row names the port whose request in execution its owning
block takes, where the catalogue of R176 permits more than one port. -/
inductive Instr where
  | coldReset
  | transactionStart (p : Port)
  | transactionEnd (p : Port) (clockedIn : List Byte)
  | requestDispatch (p : Port)
  | status (p : Port)
  | notices (p : Port)
  | readChannel (p : Port)
  | readDrive (p : Port)
  | arm
  | start
  | pause (p : Port)
  | resume (p : Port)
  | stop (p : Port)
  | cueLoad
  | cueClear
  | audioBlock
  | audioFlush
  | volume (p : Port)
  | claim
  | set
  | release
  | lockout
  | unlock
  | estop
  | estopReset
  | drivePowerOn
  | drivePowerOff
  | driveClear
  | wind
  | level
  | budget
  | configOpen
  | configWrite
  | configCommit
  | restart
  | outputFrameEvent
  | starvationHold
  | endOfShow
  | fadeEnd
  | startDeadlineExpiry
  | slotExpiry
  | channelEvaluation (c : Channel)
  | outputSelection (c : Channel)
  | commandComputation (i : Pump)
  | valveAnswer (j : Jet)
  | fixtureRendering (f : Fixture)
  | frameHandover (l : Line)
  | frameEnd (l : Line)
  | exchangeCompletion (window : List ReplyFrame)
  | powerDeadlineExpiry (i : Pump)
  | leaseExpiry (c : Channel)
  | windDeadlineExpiry
  | levelDeadlineExpiry
  | estopNChange (low : Bool)
  | debounceDeadlineExpiry
  | resetNRelease
deriving DecidableEq, Repr

end Sys2Proof
end

