-- ==== Sys2Proof/WellFormed.lean ====
section
/-! DEFINITION. Which commands can come about at all: the ports that R176 permits, and the lines that report a frame end. -/

namespace Sys2Proof

/-- PAUSE, RESUME, STOP and VOLUME come from the SHOW and CONSOLE ports only (R176); the frame end of the drive line is an
exchange completion (R81, R122). Every other operand is admissible by its type. -/
def Instr.wf : Instr → Bool
  | .pause p => p ≠ .plantPort
  | .resume p => p ≠ .plantPort
  | .stop p => p ≠ .plantPort
  | .volume p => p ≠ .plantPort
  | .frameEnd l => l ≠ .drive
  | .coldReset | .transactionStart _ | .transactionEnd _ _ | .requestDispatch _ | .status _ | .notices _ | .readChannel _
  | .readDrive _ | .arm | .start | .cueLoad | .cueClear | .audioBlock | .audioFlush | .claim | .set | .release | .lockout
  | .unlock | .estop | .estopReset | .drivePowerOn | .drivePowerOff | .driveClear | .wind | .level | .budget | .configOpen
  | .configWrite | .configCommit | .restart | .outputFrameEvent | .starvationHold | .endOfShow | .startDeadlineExpiry
  | .fadeEnd | .slotExpiry | .channelEvaluation _ | .outputSelection _ | .commandComputation _ | .valveAnswer _
  | .fixtureRendering _ | .frameHandover _ | .exchangeCompletion _ | .powerDeadlineExpiry _ | .leaseExpiry _
  | .windDeadlineExpiry | .levelDeadlineExpiry | .estopNChange _ | .debounceDeadlineExpiry | .resetNRelease => true

end Sys2Proof
end

