-- ==== Sys2Proof/Decode.lean ====
section
/-! DEFINITION. Reading a command from a word of the opcode table. The table gives none of its rows any bits ("fields": [] and
no pattern in every row), so no word spells a command. -/

namespace Sys2Proof

/-- The command that a word of the opcode table spells: none, because no row has bits (notes/assumptions/3). -/
def decodeTableWord (_nbits _w : Nat) : Option Instr := none

end Sys2Proof
end

