-- ==== Sys2Proof/Machine/Tables.lean ====
section
/-! DEFINITION. Values of channels, and the installation tables with their defaults (chapters 5, 6, 8 and 11). One structure
`Tables` holds them all: it stands once for the tables in use and once for the tables CFG holds. -/

namespace Sys2Proof.Machine

/-- A colour value: five components, each 0–255 (R1). -/
structure Colour where
  r : Nat
  g : Nat
  b : Nat
  w : Nat
  i : Nat
deriving DecidableEq, Repr

/-- A rendered colour: the four emitter outputs, each 0–255 (R147). -/
structure Lamp where
  r : Nat
  g : Nat
  b : Nat
  w : Nat
deriving DecidableEq, Repr

/-- A value a channel carries (R1): a level for pumps and jets, a colour for fixtures. -/
inductive Value where
  | level (n : Nat)
  | colour (c : Colour)
deriving DecidableEq, Repr

/-- Wind class of a pump (R93), in the order of its coding (R189). -/
inductive WindClass where
  | none
  | low
  | mid
  | tall
deriving DecidableEq, Repr

/-- One entry of the pump table (R93), with the pump's rest value (R189). -/
structure PumpEntry where
  prated : Nat
  ps : Nat
  mr : Nat
  ru : Nat
  rd : Nat
  erd : Nat
  windClass : WindClass
  mo : Nat
  rest : Nat
deriving DecidableEq, Repr

/-- Mode of a jet (R140). -/
inductive JetMode where
  | onOff
  | proportional
deriving DecidableEq, Repr

/-- One entry of the jet table (R140). -/
structure JetEntry where
  mode : JetMode
  supply : Option Pump
  rest : Nat
deriving DecidableEq, Repr

/-- Emitters of a fixture (R146). -/
inductive Emitters where
  | rgb
  | rgbw
deriving DecidableEq, Repr

/-- White mode of a fixture (R146). -/
inductive WhiteMode where
  | direct
  | auto
deriving DecidableEq, Repr

/-- One entry of the fixture table (R146). -/
structure FixtureEntry where
  emitters : Emitters
  white : WhiteMode
  immersion : Option Nat
  cap : Nat
  safety : Colour
  rest : Colour
deriving DecidableEq, Repr

/-- A wind curve (R94): start and full reduction in 0.1 m/s, floor factor in per-mille. -/
structure WindCurve where
  ws : Nat
  wf : Nat
  floor : Nat
deriving DecidableEq, Repr

/-- The sixteen limits of R189, in the order of its table. -/
structure Limits where
  startLevel : Nat
  resumeLevel : Nat
  lowMark : Nat
  starveGrace : Nat
  startTimeout : Nat
  fadeTime : Nat
  lease : Nat
  pumpRejoin : Nat
  jetRejoin : Nat
  fixtureRejoin : Nat
  air : Nat
  windStale : Nat
  levelStale : Nat
  lowLevelTrip : Nat
  powerTimeout : Nat
  lowPool : Nat
deriving DecidableEq, Repr

/-- The installation tables (R187). `slots` holds a group, or none for NULL (R78). -/
structure Tables where
  pumps : Vector PumpEntry 16
  jets : Vector JetEntry 128
  fixtures : Vector FixtureEntry 192
  low : WindCurve
  mid : WindCurve
  tall : WindCurve
  slots : Vector (Option Group) 40
  limits : Limits
deriving DecidableEq, Repr

/-- Default pump entry (R93, R189). -/
def defaultPump : PumpEntry := ⟨55000, 1000, 250, 100, 100, 250, .none, 0, 0⟩

/-- Default jet entry (R140). -/
def defaultJet : JetEntry := ⟨.proportional, none, 0⟩

/-- Default fixture entry (R146). -/
def defaultFixture : FixtureEntry := ⟨.rgbw, .direct, none, 26, ⟨0, 0, 0, 255, 102⟩, ⟨0, 0, 0, 0, 0⟩⟩

/-- Default limits (R189). -/
def defaultLimits : Limits :=
  ⟨9600, 9600, 4800, 24000, 5000, 3000, 2000, 1000, 1000, 500, 20, 10000, 10000, 300, 5000, 256⟩

/-- The default slot table of R78. -/
def defaultSlots : Vector (Option Group) 40 :=
  #v[some 0, some 20, some 1, some 24, some 2, some 16, some 3, some 21, some 4, some 25, some 5, some 17, some 6, some 22,
     some 7, some 26, some 8, some 18, some 9, some 23, some 10, some 27, some 11, some 19, some 12, none, some 13, none,
     some 14, none, some 15, none, none, none, none, none, none, none, none, none]

/-- The factory defaults (R78, R93, R94, R140, R146, R189). -/
def defaultTables : Tables where
  pumps := uniform 16 defaultPump
  jets := uniform 128 defaultJet
  fixtures := uniform 192 defaultFixture
  low := ⟨100, 200, 600⟩
  mid := ⟨80, 160, 450⟩
  tall := ⟨60, 120, 350⟩
  slots := defaultSlots
  limits := defaultLimits

end Sys2Proof.Machine
end

