-- ==== Sys2Proof/Machine/State.lean ====
section
/-! DEFINITION. The state of the part, block by block, as plain data; its value after cold reset; and the reasons a command
could stop for. -/

namespace Sys2Proof.Machine

/-! ## Master ports (chapter 10) -/

/-- Results (R177). -/
inductive Result where
  | ok
  | partialResult
  | trimmed
  | late
  | busyState
  | notConfigured
  | wrongPort
  | badArgument
  | channelLocked
  | notOwner
  | claimLimit
  | poolFull
  | queueFull
  | estopActive
  | driveAbsent
  | driveFaulted
  | badConfig
deriving DecidableEq, Repr

/-- Notice kinds (R181). -/
inductive NoticeKind where
  | showState
  | estop
  | estopClear
  | audioLow
  | startTimeout
  | cuesLow
  | claimExpired
  | claimLost
  | driveLost
  | driveFault
  | driveReady
  | driveRefused
  | windStale
  | levelStale
  | lowWater
  | waterOk
  | budgetExcess
  | budgetOk
  | slotOverrun
  | driveFound
deriving DecidableEq, Repr

/-- A notice (R181). -/
structure Notice where
  kind : NoticeKind
  subject : Nat
  detail : Nat
  time : Time
deriving DecidableEq, Repr

/-- A queued request, held whole (R171). -/
structure Request where
  kind : Byte
  tag : Byte
  body : List Byte
deriving DecidableEq, Repr

/-- The request in execution (R171), with the local time at which the port took it (R178). -/
structure Executing where
  request : Request
  takenAt : Time
deriving DecidableEq, Repr

/-- A response on an outgoing queue (R177). -/
structure Response where
  kind : Byte
  tag : Byte
  result : Result
  body : List Byte
deriving DecidableEq, Repr

/-- The last admission result (R171). -/
inductive Admission where
  | none
  | admitted
  | refusedFull
  | badFrame
  | aborted
deriving DecidableEq, Repr

/-- What a port fixed at the beginning of a transaction (R172): the six status bytes, then the oldest response if there was
one. -/
structure Transaction where
  header : List Byte
  response : Option (List Byte)
deriving DecidableEq, Repr

/-- A master port (R171), the transaction in progress on it, the bytes that its data output shifted out in the transaction last
ended (R172), and its attention output (R183). -/
structure MasterPort where
  urgent : List Request
  bulk : List Request
  executing : Option Executing
  outgoing : List Response
  notices : List Notice
  dropped : Bool
  admission : Admission
  admissionTag : Byte
  errorCount : Nat
  transaction : Option Transaction
  shiftedOut : List Byte
  attention : Bool
deriving DecidableEq, Repr

/-! ## Show sequencer (chapter 1) -/

/-- Show state (R4). -/
inductive ShowState where
  | unconfigured
  | idle
  | armed
  | running
  | hold
  | fading
deriving DecidableEq, Repr

/-- Hold cause (R4). -/
inductive HoldCause where
  | paused
  | starved
deriving DecidableEq, Repr

/-- Idle cause (R4). -/
inductive IdleCause where
  | cold
  | restart
  | stopped
  | ended
  | estop
deriving DecidableEq, Repr

/-- Reset origin (R4). -/
inductive ResetOrigin where
  | cold
  | restart
deriving DecidableEq, Repr

/-- Fade cause (R4). -/
inductive FadeCause where
  | stopped
  | ended
deriving DecidableEq, Repr

/-- The sequencer record (R4). Start-pending is set exactly while the start deadline is present, so the deadline alone stands
for both. The three last fields are what PLU has handed SEQ at an output frame event and SEQ has not yet taken (R31): a hold
asked for, the end of the show reached, the fade end reached. -/
structure Seq where
  showState : ShowState
  holdCause : Option HoldCause
  idleCause : IdleCause
  resetOrigin : ResetOrigin
  startDeadline : Option Time
  endPosition : Option Nat
  fadeEnd : Option Nat
  fadeCause : Option FadeCause
  silent : Bool
  holdAsked : Bool
  endReached : Bool
  fadeReached : Bool
deriving DecidableEq, Repr

/-! ## Playout unit (chapter 2) -/

/-- One sample frame: left and right (R20). -/
structure Frame where
  left : Int
  right : Int
deriving DecidableEq, Repr

/-- An audio block (R20). Its frame count is the length of `frames`. -/
structure AudioBlock where
  position : Nat
  frames : List Frame
deriving DecidableEq, Repr

/-- PLU's state (R37), and the frame last put on the serial audio output (R30). -/
structure Plu where
  position : Nat
  queue : List AudioBlock
  starvation : Nat
  volume : Nat
  lowMarkArmed : Bool
  output : Frame
deriving DecidableEq, Repr

/-! ## Cue store (chapter 3) -/

/-- Curve of a cue (R38). -/
inductive Curve where
  | step
  | linear
  | ease
deriving DecidableEq, Repr

/-- Origin of a cue (R38). -/
inductive Origin where
  | loaded
  | fade
  | rest
deriving DecidableEq, Repr

/-- State of a cue (R38): an ACTIVE cue has its from-value and, when it is an installed one, its activation time. -/
inductive CueState where
  | pending
  | active (fromValue : Value) (activation : Option Time)
deriving DecidableEq, Repr

/-- A cue record in a cue list (R38). Its channel is the channel of the list that holds it. -/
structure Cue where
  start : Nat
  duration : Nat
  curve : Curve
  target : Value
  origin : Origin
  state : CueState
deriving DecidableEq, Repr

/-- CST's state (R39, R40, R46, R49). The free list has no observable order, so its length stands for it. -/
structure Cst where
  lists : Vector (List Cue) 336
  free : Nat
  shown : Vector Value 336
  skipped : Nat
  poolLowArmed : Bool
deriving DecidableEq, Repr

/-! ## Channel arbiter (chapter 4) -/

/-- Console claim (R58). -/
structure Claim where
  value : Value
  target : Value
  setTime : Time
  ramp : Nat
  lease : Time
deriving DecidableEq, Repr

/-- Plant lockout (R58). -/
structure Lockout where
  value : Value
  heldOff : Bool
  reason : Nat
deriving DecidableEq, Repr

/-- Rejoin (R58). -/
structure Rejoin where
  fromValue : Value
  start : Time
  duration : Nat
deriving DecidableEq, Repr

/-- Ownership record (R58). -/
structure Ownership where
  claim : Option Claim
  lockout : Option Lockout
  rejoin : Option Rejoin
deriving DecidableEq, Repr

/-- CHA's state (R58, R59). -/
structure Cha where
  records : Vector Ownership 336
  claimCount : Nat
deriving DecidableEq, Repr

/-! ## Drive line controller (chapter 7) -/

/-- Power state of a drive (R119). -/
inductive Power where
  | off
  | poweringUp
  | on
  | poweringDown
  | underLocal
  | fault
deriving DecidableEq, Repr

/-- A command the part still has to deliver (R119). -/
inductive DriveCommand where
  | powerOn
  | powerOff
  | clear
deriving DecidableEq, Repr

/-- A pending command with its request time and prior state (R119). `framed` says that DLC has built a frame that carries this very
command, so that a command which a request has put in its place since is told from it (R131, R136; notes/assumptions/18). -/
structure PendingCommand where
  command : DriveCommand
  requestTime : Time
  prior : Power
  framed : Bool
deriving DecidableEq, Repr

/-- Fault cause (R119). -/
inductive FaultCause where
  | trip (code : Nat)
  | powerTimeout
deriving DecidableEq, Repr

/-- A drive record (R119). -/
structure DriveRecord where
  present : Bool
  power : Power
  pending : Option PendingCommand
  deadline : Option Time
  fault : Option FaultCause
  misses : Nat
  telemetry : Option Telemetry
  age : Nat
deriving DecidableEq, Repr

/-- A frame the part sends to a drive (R121). -/
inductive DriveFrame where
  | speed (n : Nat)
  | power (on : Bool)
  | clear
  | probe
deriving DecidableEq, Repr

/-! ## Frame scheduler (chapter 5) -/

/-- Which of the three asks of R82 is outstanding for the channel being valued, with what the earlier asks have given. -/
inductive Ask where
  | evaluate
  | select (shown : Value)
  | answer (selected : Value)
deriving DecidableEq, Repr

/-- An answer placed in a frame (R82): a commanded speed, a valve output or a rendered colour. -/
inductive Answer where
  | speed (n : Nat)
  | opening (n : Nat)
  | lamp (l : Lamp)
deriving DecidableEq, Repr

/-- A group's frame being gathered (R82): the answers so far in channel order; the next channel is the one being asked for. -/
structure Gather where
  group : Group
  answers : List Answer
  ask : Ask
deriving DecidableEq, Repr

/-- The entry whose frame holds a line (R81). -/
inductive LineEntry where
  | group (g : Group)
  | null (d : Pump)
deriving DecidableEq, Repr

/-- What was handed to a line, with its check: a drive frame (R121), a valve line frame (R144) or a fixture line frame
(R152). -/
inductive LineFrame where
  | drive (d : Pump) (f : DriveFrame) (check : BitVec 16)
  | valve (g : Group) (outputs : List Nat) (check : BitVec 16)
  | fixture (g : Group) (outputs : List Lamp) (check : BitVec 16)
deriving DecidableEq, Repr

/-- A line state (R81). ASSEMBLING holds a group's gathering, or the NULL entry with the drive chosen for it and the frame that DLC
built with the choice (R124). -/
inductive LineState where
  | free
  | assembling (g : Gather)
  | assemblingNull (d : Pump) (f : DriveFrame)
  | sending (e : LineEntry) (f : LineFrame)
deriving DecidableEq, Repr

/-- FSC's state (R92). The slot table in use stands in `State.tables`. -/
structure Fsc where
  pointer : Slot
  drive : LineState
  valve : LineState
  fixtureA : LineState
  fixtureB : LineState
  overruns : Vector Nat 28
  management : Pump
deriving DecidableEq, Repr

/-! ## Pump governor (chapter 6) -/

/-- What PGV holds for one pump (R95). -/
structure PumpState where
  allowed : Nat
  commanded : Nat
  share : Nat
  lastCommand : Time
deriving DecidableEq, Repr

/-- PGV's state (R95). -/
structure Pgv where
  pumps : Vector PumpState 16
  total : Nat
  budget : Nat
  excess : Bool
deriving DecidableEq, Repr

/-! ## Output unit (chapter 8) -/

/-- OUT's two output tables (R143, R151). -/
structure Out where
  valves : Vector Nat 128
  lamps : Vector Lamp 192
deriving DecidableEq, Repr

/-! ## Plant monitor (chapter 9) -/

/-- What brought the part into the emergency stop (R155). -/
inductive EntryCause where
  | line
  | latch
deriving DecidableEq, Repr

/-- Entry cause and entry time (R155), and the length of the stop so far in ms, which is held at 4,294,967,295 (R168): local
time wraps, so the entry time alone does not give the length of a long stop. -/
structure StopEntry where
  cause : EntryCause
  time : Time
  length : Nat
deriving DecidableEq, Repr

/-- The plant record (R155). A quantity is FRESH exactly while its deadline is present; the emergency stop state is ACTIVE
exactly while the entry is present. `rawLow` is the raw level of the ESTOP_N pin (R162). -/
structure Plm where
  windSpeed : Option Nat
  windDeadline : Option Time
  windAge : Nat
  basinLevel : Option Nat
  levelDeadline : Option Time
  levelAge : Nat
  lowWater : Bool
  lineActive : Bool
  debounce : Option Time
  latch : Bool
  stop : Option StopEntry
  rawLow : Bool
deriving DecidableEq, Repr

/-! ## Configuration store (chapter 11) and clock -/

/-- Configuration state (R187). -/
inductive ConfigState where
  | defaults
  | opened
  | valid
deriving DecidableEq, Repr

/-- CFG's state (R187). -/
structure Cfg where
  state : ConfigState
  held : Tables
deriving DecidableEq, Repr

/-- Local time (R2), the slot expiries taken in the present millisecond (R80), and whether RESET_N has been released since
the last cold reset (R80, R162, R194). -/
structure Clock where
  now : Time
  expiries : Nat
  released : Bool
deriving DecidableEq, Repr

/-! ## The whole part -/

/-- The state of the part. `tables` holds the tables in use of every block (R187). `pending` is the queue of commands that
are waiting, first in, first out. -/
structure State where
  mpShow : MasterPort
  mpPlant : MasterPort
  mpConsole : MasterPort
  seq : Seq
  plu : Plu
  cst : Cst
  cha : Cha
  fsc : Fsc
  pgv : Pgv
  dlc : Vector DriveRecord 16
  out : Out
  plm : Plm
  cfg : Cfg
  tables : Tables
  clock : Clock
  pending : List Instr
deriving DecidableEq, Repr

/-- Why the part could stop with a fault. No rule of the reference stops the part, so there is no reason (safe: nothing is
claimed of a stop). -/
inductive Fault where
deriving DecidableEq, Repr

/-- Why a command could be refused. -/
inductive Refusal where
  /-- Raised only by an arm of `exec` whose command has no meaning yet; no arm does. Safe: nothing is claimed of it. -/
  | notModelled (mnemonic : String)
deriving DecidableEq, Repr

/-! ## Cold reset -/

/-- A master port after cold reset (R186). -/
def MasterPort.cold : MasterPort where
  urgent := []
  bulk := []
  executing := none
  outgoing := []
  notices := []
  dropped := false
  admission := .none
  admissionTag := 0
  errorCount := 0
  transaction := none
  shiftedOut := []
  attention := false

/-- The sequencer record after cold reset (R19). -/
def Seq.cold : Seq where
  showState := .unconfigured
  holdCause := none
  idleCause := .cold
  resetOrigin := .cold
  startDeadline := none
  endPosition := none
  fadeEnd := none
  fadeCause := none
  silent := false
  holdAsked := false
  endReached := false
  fadeReached := false

/-- PLU after cold reset (R37). The frame on the audio output is DESIGN CHOICE silence (notes/assumptions/2). -/
def Plu.cold : Plu where
  position := 0
  queue := []
  starvation := 0
  volume := 1000
  lowMarkArmed := true
  output := ⟨0, 0⟩

/-- The default rest value of a channel (R57). -/
def coldValue (c : Channel) : Value :=
  if c.val < 144 then .level 0 else .colour ⟨0, 0, 0, 0, 0⟩

/-- CST after cold reset (R57). -/
def Cst.cold : Cst where
  lists := uniform 336 []
  free := Config.poolSize
  shown := tabulate coldValue
  skipped := 0
  poolLowArmed := true

/-- An empty ownership record (R58). -/
def Ownership.empty : Ownership := ⟨none, none, none⟩

/-- CHA after cold reset (R77). -/
def Cha.cold : Cha where
  records := uniform 336 .empty
  claimCount := 0

/-- FSC after cold reset (R92). -/
def Fsc.cold : Fsc where
  pointer := 0
  drive := .free
  valve := .free
  fixtureA := .free
  fixtureB := .free
  overruns := uniform 28 0
  management := 15

/-- PGV after cold reset (R117): every allowed speed is the stale ceiling of the default table, 1000. -/
def Pgv.cold : Pgv where
  pumps := uniform 16 ⟨1000, 0, 0, 0⟩
  total := 0
  budget := 0
  excess := false

/-- A drive record after cold reset (R120, R139). -/
def DriveRecord.cold : DriveRecord where
  present := false
  power := .off
  pending := none
  deadline := none
  fault := none
  misses := 3
  telemetry := none
  age := 0

/-- OUT after cold reset (R154). -/
def Out.cold : Out where
  valves := uniform 128 0
  lamps := uniform 192 ⟨0, 0, 0, 0⟩

/-- PLM after cold reset (R170), with the raw level of the pin as it stands. -/
def Plm.cold (rawLow : Bool) : Plm where
  windSpeed := none
  windDeadline := none
  windAge := 0
  basinLevel := none
  levelDeadline := none
  levelAge := 0
  lowWater := false
  lineActive := false
  debounce := none
  latch := false
  stop := none
  rawLow := rawLow

/-- The part right after cold reset, RESET_N not yet released (R194). The raw ESTOP_N level is DESIGN CHOICE high
(notes/assumptions/2). -/
def State.reset : State where
  mpShow := .cold
  mpPlant := .cold
  mpConsole := .cold
  seq := .cold
  plu := .cold
  cst := .cold
  cha := .cold
  fsc := .cold
  pgv := .cold
  dlc := uniform 16 .cold
  out := .cold
  plm := .cold false
  cfg := ⟨.defaults, defaultTables⟩
  tables := defaultTables
  clock := ⟨0, 0, false⟩
  pending := []

end Sys2Proof.Machine
end

