-- ==== Sys2Proof/Machine/Bytes.lean ====
section
/-! DEFINITION. Bytes of frames: multi-byte numbers, absent fields and the check (R177, R184, R185). -/

namespace Sys2Proof.Machine

/-- The `k` bytes of `n`, most significant byte first (R177). -/
def bytes (k n : Nat) : List Byte :=
  (List.range k).map fun j => BitVec.ofNat 8 (n / 256 ^ (k - 1 - j))

/-- The number in the `k` bytes of `body` from byte `at_` on, most significant byte first (R177). -/
def field (body : List Byte) (at_ k : Nat) : Nat :=
  ((body.drop at_).take k).foldl (fun a b => a * 256 + b.toNat) 0

/-- A position or lead in four bytes (R185). At 2^32 and above the field carries a free value (notes/assumptions/27). -/
def positionField (n : Nat) : List Byte :=
  if n < 4294967296 then bytes 4 n else bytes 4 (Config.beyondField n).toNat

/-- A response flag: 0 clear or disarmed, 1 set or armed (R185). -/
def flagByte (b : Bool) : List Byte := bytes 1 (if b then 1 else 0)

/-- `k` bytes FFh, which carry an absent field (R177). -/
def absent (k : Nat) : List Byte := List.replicate k 0xFF#8

/-- The `k` bytes of an optional number; FFh in each when it is absent (R177). -/
def optBytes (k : Nat) : Option Nat → List Byte
  | some n => bytes k n
  | none => absent k

/-- An optional local time in four bytes. -/
def optTime (t : Option Time) : List Byte := optBytes 4 (t.map BitVec.toNat)

/-- A channel value in five bytes (R185). -/
def valueBytes : Value → List Byte
  | .level n => bytes 2 n ++ bytes 3 0
  | .colour c => bytes 1 c.r ++ bytes 1 c.g ++ bytes 1 c.b ++ bytes 1 c.w ++ bytes 1 c.i

/-- The signed value of a 24-bit sample (R20). -/
def signed24 (n : Nat) : Int := if n < 8388608 then (n : Int) else (n : Int) - 16777216

/-- One bit of the check: shift left, and fold the generator x¹⁶ + x¹² + x⁵ + 1 in when the bit shifted out was 1 (R184). -/
def crcBit (r : BitVec 16) : BitVec 16 :=
  if r.getLsbD 15 then (r <<< 1) ^^^ 0x1021#16 else r <<< 1

/-- One byte of the check, most significant bit first (R184). -/
def crcByte (r : BitVec 16) (b : Byte) : BitVec 16 :=
  (List.range 8).foldl (fun r _ => crcBit r) (r ^^^ (b.zeroExtend 16 <<< 8))

/-- The check of R184 over a list of bytes: the register starts at FFFFh, with no final inversion. -/
def crc (bs : List Byte) : BitVec 16 := bs.foldl crcByte 0xFFFF#16

end Sys2Proof.Machine
end

