-- ==== Sys2Proof/Machine/Codes.lean ====
section
/-! DEFINITION. The codes of chapter 10: results, notice kinds, request kinds with their class and ports, and enumerations,
each numbered from 0 in the order its values are listed (R185). -/

namespace Sys2Proof.Machine

/-- Result codes (R177). -/
def Result.code : Result → Nat
  | .ok => 0x00
  | .partialResult => 0x01
  | .trimmed => 0x02
  | .late => 0x03
  | .busyState => 0x04
  | .notConfigured => 0x05
  | .wrongPort => 0x06
  | .badArgument => 0x07
  | .channelLocked => 0x08
  | .notOwner => 0x09
  | .claimLimit => 0x0A
  | .poolFull => 0x0B
  | .queueFull => 0x0C
  | .estopActive => 0x0D
  | .driveAbsent => 0x0E
  | .driveFaulted => 0x0F
  | .badConfig => 0x10

/-- Notice codes (R181). -/
def NoticeKind.code : NoticeKind → Nat
  | .showState => 0x01
  | .estop => 0x02
  | .estopClear => 0x03
  | .audioLow => 0x04
  | .startTimeout => 0x05
  | .cuesLow => 0x06
  | .claimExpired => 0x07
  | .claimLost => 0x08
  | .driveLost => 0x09
  | .driveFault => 0x0A
  | .driveReady => 0x0B
  | .driveRefused => 0x0C
  | .windStale => 0x0D
  | .levelStale => 0x0E
  | .lowWater => 0x0F
  | .waterOk => 0x10
  | .budgetExcess => 0x11
  | .budgetOk => 0x12
  | .slotOverrun => 0x13
  | .driveFound => 0x14

/-- Whether a notice kind is raised to a port (R181). -/
def NoticeKind.raisedTo : NoticeKind → Port → Bool
  | .showState, _ | .estop, _ | .estopClear, _ => true
  | .audioLow, p | .startTimeout, p | .cuesLow, p => p = .showPort
  | .claimExpired, p | .claimLost, p => p = .consolePort
  | .driveLost, p | .driveFault, p | .windStale, p | .levelStale, p | .lowWater, p | .waterOk, p => p ≠ .consolePort
  | .driveReady, p | .driveRefused, p | .budgetExcess, p | .budgetOk, p | .slotOverrun, p | .driveFound, p =>
    p = .plantPort

/-- The two classes of requests (R171). -/
inductive RequestClass where
  | urgent
  | bulk
deriving DecidableEq, Repr

/-- A row of the request catalogue (R176): class and permitted ports. -/
structure KindRow where
  cls : RequestClass
  onShow : Bool
  onPlant : Bool
  onConsole : Bool
deriving DecidableEq, Repr

/-- Whether a kind of the catalogue is permitted on a port (R176). -/
def KindRow.permits (k : KindRow) : Port → Bool
  | .showPort => k.onShow
  | .plantPort => k.onPlant
  | .consolePort => k.onConsole

/-- The request catalogue of R176, by kind byte; none for a kind it does not name. -/
def catalogue (kind : Byte) : Option KindRow :=
  let k := kind.toNat
  if k = 0x01 ∨ k = 0x02 ∨ k = 0x03 ∨ k = 0x04 then some ⟨.urgent, true, true, true⟩
  else if k = 0x10 ∨ k = 0x11 then some ⟨.bulk, true, false, false⟩
  else if k = 0x12 ∨ k = 0x13 ∨ k = 0x14 then some ⟨.urgent, true, false, true⟩
  else if k = 0x18 ∨ k = 0x19 ∨ k = 0x1A ∨ k = 0x1B then some ⟨.bulk, true, false, false⟩
  else if k = 0x1C then some ⟨.urgent, true, false, true⟩
  else if k = 0x20 ∨ k = 0x21 ∨ k = 0x22 then some ⟨.urgent, false, false, true⟩
  else if k = 0x28 ∨ k = 0x29 then some ⟨.urgent, false, true, false⟩
  else if 0x30 ≤ k ∧ k ≤ 0x36 then some ⟨.urgent, false, true, false⟩
  else if 0x40 ≤ k ∧ k ≤ 0x43 then some ⟨.bulk, false, true, false⟩
  else none

/-- The class a frame of this kind is admitted under: a kind the catalogue does not name joins the bulk queue (R174). -/
def classOf (kind : Byte) : RequestClass :=
  match catalogue kind with
  | some k => k.cls
  | none => .bulk

/-- Admission codes of the status bytes (R184). -/
def Admission.code : Admission → Nat
  | .none => 0
  | .admitted => 1
  | .refusedFull => 2
  | .badFrame => 3
  | .aborted => 4

def ShowState.code : ShowState → Nat
  | .unconfigured => 0
  | .idle => 1
  | .armed => 2
  | .running => 3
  | .hold => 4
  | .fading => 5

def HoldCause.code : HoldCause → Nat
  | .paused => 0
  | .starved => 1

def IdleCause.code : IdleCause → Nat
  | .cold => 0
  | .restart => 1
  | .stopped => 2
  | .ended => 3
  | .estop => 4

def ResetOrigin.code : ResetOrigin → Nat
  | .cold => 0
  | .restart => 1

def FadeCause.code : FadeCause → Nat
  | .stopped => 0
  | .ended => 1

def Curve.code : Curve → Nat
  | .step => 0
  | .linear => 1
  | .ease => 2

def Origin.code : Origin → Nat
  | .loaded => 0
  | .fade => 1
  | .rest => 2

def Power.code : Power → Nat
  | .off => 0
  | .poweringUp => 1
  | .on => 2
  | .poweringDown => 3
  | .underLocal => 4
  | .fault => 5

def DriveCommand.code : DriveCommand → Nat
  | .powerOn => 0
  | .powerOff => 1
  | .clear => 2

def EntryCause.code : EntryCause → Nat
  | .line => 0
  | .latch => 1

def ConfigState.code : ConfigState → Nat
  | .defaults => 0
  | .opened => 1
  | .valid => 2

/-- Presence of a drive: ABSENT, PRESENT (R119). -/
def presenceCode (present : Bool) : Nat := if present then 1 else 0

/-- Freshness: FRESH, STALE (R155); a quantity is FRESH while its deadline is present. -/
def freshnessCode (deadline : Option Time) : Nat := if deadline.isSome then 0 else 1

/-- Line state: ACTIVE, INACTIVE (R155). -/
def lineStateCode (active : Bool) : Nat := if active then 0 else 1

/-- Emergency stop state: CLEAR, ACTIVE (R155). -/
def stopStateCode (active : Bool) : Nat := if active then 1 else 0

/-- Detail of DRIVE_FAULT for a fault cause (R127, R129, R137). -/
def FaultCause.detail : FaultCause → Nat
  | .trip c => c
  | .powerTimeout => 256

/-- Detail of DRIVE_REFUSED for a command (R131). -/
def DriveCommand.refusedDetail : DriveCommand → Nat
  | .powerOn => 1
  | .powerOff => 2
  | .clear => 3

/-- The bytes of a frame sent on the drive line that its check covers: address, kind, fields (R121). R121 gives no widths, so the
address in one byte, the speed in two and on or off in one byte as 1 or 0 are DESIGN CHOICE; the kind bytes are free constants
of Config (notes/assumptions/12). -/
def DriveFrame.covered (d : Pump) : DriveFrame → List Byte
  | .speed n => bytes 1 (d.val + 1) ++ [Config.speedKindCode] ++ bytes 2 n
  | .power on => bytes 1 (d.val + 1) ++ [Config.powerKindCode] ++ flagByte on
  | .clear => bytes 1 (d.val + 1) ++ [Config.clearKindCode]
  | .probe => bytes 1 (d.val + 1) ++ [Config.probeKindCode]

/-- The check of a frame sent on the drive line, formed over its address, kind and fields (R121, R184). -/
def DriveFrame.check (d : Pump) (f : DriveFrame) : BitVec 16 := crc (f.covered d)

/-- The place of a drive-reported state in the table of R121, counted from 0. -/
def reportedPlace : Reported → Nat
  | .off => 0
  | .starting => 1
  | .ready => 2
  | .stopping => 3
  | .tripped => 4
  | .underLocal => 5

/-- The bytes of a drive's reply that its check covers: address, kind, fields (R121). DESIGN CHOICE: the address, the reported
state, the temperature and the fault code take one byte each, the other telemetry fields two; the kind and state bytes are free
constants of Config (notes/assumptions/12). -/
def replyCovered (address : Nat) : ReplyKind → List Byte
  | .state r t =>
    bytes 1 address ++ [Config.stateKindCode, Config.reportedStateCode (reportedPlace r)] ++ bytes 2 t.speed ++ bytes 2 t.current.toNat ++
      bytes 2 t.pressure.toNat ++ [t.temperature, t.faultCode]
  | .refused => bytes 1 address ++ [Config.refusedKindCode]
  | .other => bytes 1 address

/-- The check that a reply must carry (R121, R184). -/
def replyCheck (address : Nat) (k : ReplyKind) : BitVec 16 := crc (replyCovered address k)

end Sys2Proof.Machine
end

