-- ==== Sys2Proof/Machine/Ops.lean ====
section
/-! DEFINITION. The operations every command shares: local time, channel geometry, the updates of the state, ports, notices
and responses. -/

namespace Sys2Proof.Machine

/-! ## Local time (R2) -/

/-- Local time has reached the deadline, judged by modular difference (R2). -/
def reached (now deadline : Time) : Bool := (now - deadline).toNat < 2147483648

/-- Milliseconds from `t` to `now`, modulo 2^32 (R60, R104). -/
def elapsed (now t : Time) : Nat := (now - t).toNat

/-- `t` plus a span of ms (R8, R64, R124, R156). -/
def after (t : Time) (ms : Nat) : Time := t + BitVec.ofNat 32 ms

/-! ## Channels and groups (R1, R78) -/

/-- The kind of a channel (R1). -/
inductive Kind where
  | pump
  | jet
  | fixture
deriving DecidableEq, Repr

/-- The kind of a channel (R1). -/
def kindOf (c : Channel) : Kind :=
  if c.val < 16 then .pump else if c.val < 144 then .jet else .fixture

/-- The channel of a pump (R1). -/
def pumpChannel (i : Pump) : Channel := ⟨i.val, by omega⟩

/-- The channel of a jet (R1). -/
def jetChannel (j : Jet) : Channel := ⟨16 + j.val, by omega⟩

/-- The channel of a fixture (R1). -/
def fixtureChannel (f : Fixture) : Channel := ⟨144 + f.val, by omega⟩

/-- The group that serves a channel (R1, R82). -/
def groupOf (c : Channel) : Group :=
  if h : c.val < 16 then ⟨c.val, by omega⟩
  else if h2 : c.val < 144 then ⟨16 + (c.val - 16) / 32, by omega⟩
  else ⟨20 + (c.val - 144) / 24, by omega⟩

/-- The first channel of a group (R82). -/
def firstChannel (g : Group) : Nat :=
  if g.val < 16 then g.val
  else if g.val < 20 then 16 + 32 * (g.val - 16)
  else 144 + 24 * (g.val - 20)

/-- The number of channels of a group (R82). -/
def groupSize (g : Group) : Nat :=
  if g.val < 16 then 1 else if g.val < 20 then 32 else 24

/-- The line of a group (R78). -/
def lineOf (g : Group) : Line :=
  if g.val < 16 then .drive
  else if g.val < 20 then .valve
  else if g.val < 24 then .fixtureA
  else .fixtureB

/-! ## Updates of the state, one per block -/

def State.withSeq (s : State) (x : Seq) : State := { s with seq := x }
def State.withPlu (s : State) (x : Plu) : State := { s with plu := x }
def State.withCst (s : State) (x : Cst) : State := { s with cst := x }
def State.withCha (s : State) (x : Cha) : State := { s with cha := x }
def State.withFsc (s : State) (x : Fsc) : State := { s with fsc := x }
def State.withPgv (s : State) (x : Pgv) : State := { s with pgv := x }
def State.withDlc (s : State) (x : Vector DriveRecord 16) : State := { s with dlc := x }
def State.withOut (s : State) (x : Out) : State := { s with out := x }
def State.withPlm (s : State) (x : Plm) : State := { s with plm := x }
def State.withCfg (s : State) (x : Cfg) : State := { s with cfg := x }
def State.withTables (s : State) (x : Tables) : State := { s with tables := x }
def State.withClock (s : State) (x : Clock) : State := { s with clock := x }

/-- The master port of a port number. -/
def State.port (s : State) : Port → MasterPort
  | .showPort => s.mpShow
  | .plantPort => s.mpPlant
  | .consolePort => s.mpConsole

/-- The state with one master port replaced. -/
def State.withPort (s : State) (p : Port) (m : MasterPort) : State :=
  match p with
  | .showPort => { s with mpShow := m }
  | .plantPort => { s with mpPlant := m }
  | .consolePort => { s with mpConsole := m }

/-- The line state of a line (R81). -/
def Fsc.line (f : Fsc) : Line → LineState
  | .drive => f.drive
  | .valve => f.valve
  | .fixtureA => f.fixtureA
  | .fixtureB => f.fixtureB

/-- FSC's state with one line state replaced (R81). -/
def Fsc.withLine (f : Fsc) (l : Line) (x : LineState) : Fsc :=
  match l with
  | .drive => { f with drive := x }
  | .valve => { f with valve := x }
  | .fixtureA => { f with fixtureA := x }
  | .fixtureB => { f with fixtureB := x }

/-- The state with one line state replaced. -/
def State.withLine (s : State) (l : Line) (x : LineState) : State := s.withFsc (s.fsc.withLine l x)

/-! ## What the blocks ask each other -/

/-- Local time. -/
abbrev State.now (s : State) : Time := s.clock.now

/-- An emergency stop is in effect (R155). -/
def State.estop (s : State) : Bool := s.plm.stop.isSome

/-- The configuration is OPEN (R187). -/
def State.configOpen (s : State) : Bool := s.cfg.state = .opened

/-- Show time, floor(position / 48) (R3). -/
def State.showTime (s : State) : Nat := s.plu.position / Config.framesPerMs

/-! ## Notices (R181) and the attention output (R183) -/

/-- The attention output follows the outgoing queue and the notice list (R183). -/
def MasterPort.settle (m : MasterPort) : MasterPort :=
  { m with attention := !m.outgoing.isEmpty || !m.notices.isEmpty }

/-- Same key (R181). -/
def Notice.sameKey (a b : Notice) : Bool := a.kind = b.kind && a.subject = b.subject

/-- Places a notice on a port's list: in place of its key's entry, at the tail, or not at all (R181). -/
def MasterPort.place (m : MasterPort) (n : Notice) : MasterPort :=
  if m.notices.any n.sameKey then
    { m with notices := m.notices.map fun x => if n.sameKey x then n else x }.settle
  else if m.notices.length < Config.noticePlaces then
    { m with notices := m.notices ++ [n] }.settle
  else { m with dropped := true }.settle

/-- Raises a notice to every port of its kind, at the present local time (R181). -/
def State.raise (s : State) (k : NoticeKind) (subject detail : Nat) : State :=
  let n : Notice := ⟨k, subject, detail, s.clock.now⟩
  { s with
    mpShow := if k.raisedTo .showPort then s.mpShow.place n else s.mpShow
    mpPlant := if k.raisedTo .plantPort then s.mpPlant.place n else s.mpPlant
    mpConsole := if k.raisedTo .consolePort then s.mpConsole.place n else s.mpConsole }

/-! ## Requests in execution and their responses (R175, R177) -/

/-- What an owning block gives back for a request: the state after it, the result, the response body. -/
abbrev Reply := State × Result × List Byte

/-- Places a response at the tail of the outgoing queue (R175). -/
def MasterPort.respond (m : MasterPort) (r : Response) : MasterPort :=
  { m with outgoing := m.outgoing ++ [r] }.settle

/-- The request leaves execution with its response placed (R175). -/
def State.answer (s : State) (p : Port) (q : Request) (res : Result) (body : List Byte) : State :=
  s.withPort p ({ s.port p with executing := none }.respond ⟨q.kind, q.tag, res, body⟩)

/-- The owning block takes the request in execution on port `p`, if it is one of this kind and `mine` says that it is this
command's; otherwise the block has been handed nothing and nothing happens (R175; notes/assumptions/1). -/
def State.serveWhen (s : State) (p : Port) (kind : Byte) (mine : List Byte → Bool) (take : List Byte → State → Reply) :
    State :=
  match (s.port p).executing with
  | some x =>
    if x.request.kind = kind ∧ mine x.request.body then
      (take x.request.body s).1.answer p x.request (take x.request.body s).2.1 (take x.request.body s).2.2
    else s
  | none => s

/-- The owning block takes the request in execution on port `p`, if it is one of this kind (R175). -/
def State.serve (s : State) (p : Port) (kind : Byte) (take : List Byte → State → Reply) : State :=
  s.serveWhen p kind (fun _ => true) take

/-- A request whose chapter specifies no body: any other body is answered BAD_ARGUMENT and changes nothing (R176). -/
def bodiless (take : State → Reply) (body : List Byte) (s : State) : Reply :=
  if body = [] then take s else (s, .badArgument, [])

/-- A refusal: nothing changes, and the response body is empty (R177). -/
def refuse (s : State) (r : Result) : Reply := (s, r, [])

end Sys2Proof.Machine
end

