-- ==== Sys2Proof/Machine/Operands.lean ====
section
/-! DEFINITION. The operands of requests: values, channel lists and flags as the bodies carry them, and the two ramps every
value follows. -/

namespace Sys2Proof.Machine

/-- from + (to − from) × num / den, the quotient truncated toward zero (R50, R51, R60, R61). -/
def rampNat (a b num den : Nat) : Nat :=
  ((a : Int) + (((b : Int) - (a : Int)) * (num : Int)).tdiv (den : Int)).toNat

/-- `rampNat` on a value, each colour component by itself (R52, R60). Both ends have the form of the channel's kind; were
they to differ, the value would be the end value. -/
def Value.ramp (a b : Value) (num den : Nat) : Value :=
  match a, b with
  | .level x, .level y => .level (rampNat x y num den)
  | .colour x, .colour y =>
    .colour ⟨rampNat x.r y.r num den, rampNat x.g y.g num den, rampNat x.b y.b num den, rampNat x.w y.w num den,
      rampNat x.i y.i num den⟩
  | _, v => v

/-- The level of a value (R82: pumps and jets carry levels). -/
def Value.toLevel : Value → Nat
  | .level n => n
  | .colour _ => 0

/-- The colour of a value (R82: fixtures carry colours). -/
def Value.toColour : Value → Colour
  | .colour c => c
  | .level _ => ⟨0, 0, 0, 0, 0⟩

/-- The five bytes of a value decoded by the kind of the channel: a level clamped to 1000, or a colour (R42). -/
def decodeValue (c : Channel) (v : List Byte) : Value :=
  match kindOf c with
  | .fixture => .colour ⟨field v 0 1, field v 1 1, field v 2 1, field v 3 1, field v 4 1⟩
  | _ => .level (min (field v 0 2) 1000)

/-- A channel number as a body carries it: none above 335 (R42, R64). -/
def channelOf (n : Nat) : Option Channel :=
  if h : n < 336 then some ⟨n, h⟩ else none

/-- The `n`-byte pieces of a list whose length is `k` times `n`. -/
def pieces (n k : Nat) (bs : List Byte) : List (List Byte) :=
  (List.range k).map fun j => (bs.drop (n * j)).take n

/-- The channel numbers of a list of two-byte channel numbers (R63, R67, R69, R72). -/
def channelList (bs : List Byte) : List Nat :=
  (pieces 2 (bs.length / 2) bs).map fun p => field p 0 2

/-- A well-formed channel list: 1 to 64 numbers of two bytes each (R63, R67, R72). -/
def channelListOk (bs : List Byte) : Bool :=
  bs.length ≠ 0 && bs.length % 2 = 0 && bs.length ≤ 128

/-- A pump or drive index as a body carries it: none above 15 (R132, R134, R180). -/
def pumpOf (n : Nat) : Option Pump :=
  if h : n < 16 then some ⟨n, h⟩ else none

/-- Counts of a request whose entries are processed one by one: two counts of successes, the refused ones, and the first of
them with its reason (R45, R65, R67, R70, R72). -/
structure Tally where
  first : Nat
  second : Nat
  refused : Nat
  firstRefused : Option (Nat × Result)
  index : Nat
deriving DecidableEq, Repr

/-- No entry processed yet. -/
def Tally.zero : Tally := ⟨0, 0, 0, none, 0⟩

/-- One more entry of the first kind of success. -/
def Tally.one (t : Tally) : Tally := { t with first := t.first + 1, index := t.index + 1 }

/-- One more entry of the second kind of success. -/
def Tally.two (t : Tally) : Tally := { t with second := t.second + 1, index := t.index + 1 }

/-- One more refused entry. -/
def Tally.refuse (t : Tally) (r : Result) : Tally :=
  { t with
    refused := t.refused + 1
    firstRefused := if t.firstRefused.isNone then some (t.index, r) else t.firstRefused
    index := t.index + 1 }

/-- OK when no entry was refused, PARTIAL otherwise (R45, R65, R67, R70, R72). -/
def Tally.result (t : Tally) : Result := if t.refused = 0 then .ok else .partialResult

/-- The index of the first refused entry, 255 when none was (R45). -/
def Tally.firstIndex (t : Tally) : Nat := (t.firstRefused.map (·.1)).getD 255

/-- The refusal reason of that entry, OK when none was refused (R45). -/
def Tally.reason (t : Tally) : Result := (t.firstRefused.map (·.2)).getD .ok

end Sys2Proof.Machine
end

