-- ==== Sys2Proof/Machine/Flags.lean ====
section
/-! DEFINITION. The flags that blocks set, clear and raise notices by: the low mark, the free pool, the budget excess and low
water; and the quantities they test. -/

namespace Sys2Proof.Machine

/-! ## PLU's low mark (R22, R35, R36) -/

/-- The end of a block: position plus frame count (R20). -/
def AudioBlock.endPos (b : AudioBlock) : Nat := b.position + b.frames.length

/-- The expected next position (R22). -/
def Plu.expectedNext (p : Plu) : Nat :=
  match p.queue.getLast? with
  | some b => b.endPos
  | none => p.position

/-- The lead (R22). -/
def Plu.lead (p : Plu) : Nat := p.expectedNext - p.position

/-- The low-mark test, made in RUNNING with the silent flag clear (R35). -/
def State.lowMarkTest (s : State) : State :=
  if s.seq.showState = .running ∧ s.seq.silent = false ∧ s.plu.lowMarkArmed = true ∧ s.plu.lead < s.tables.limits.lowMark then
    (s.withPlu { s.plu with lowMarkArmed := false }).raise .audioLow 0 s.plu.lead
  else s

/-- Re-arming of the low-mark flag by an accepted arrival (R36). -/
def State.lowMarkRearm (s : State) : State :=
  if s.tables.limits.lowMark + Config.lowMarkMargin ≤ s.plu.lead then s.withPlu { s.plu with lowMarkArmed := true } else s

/-! ## CST's free pool (R46) -/

/-- The free-pool-low test (R46). -/
def State.poolLowTest (s : State) : State :=
  if s.cst.poolLowArmed = true ∧ s.cst.free < s.tables.limits.lowPool then
    (s.withCst { s.cst with poolLowArmed := false }).raise .cuesLow 0 s.cst.free
  else if s.cst.poolLowArmed = false ∧ s.tables.limits.lowPool + Config.lowPoolMargin ≤ s.cst.free then
    s.withCst { s.cst with poolLowArmed := true }
  else s

/-! ## PGV's budget excess (R112) -/

/-- The budget test (R112). -/
def State.budgetTest (s : State) : State :=
  if s.pgv.excess = false ∧ s.pgv.budget < s.pgv.total then
    (s.withPgv { s.pgv with excess := true }).raise .budgetExcess 0 (s.pgv.total - s.pgv.budget)
  else if s.pgv.excess = true ∧ s.pgv.total ≤ s.pgv.budget then
    (s.withPgv { s.pgv with excess := false }).raise .budgetOk 0 (s.pgv.budget - s.pgv.total)
  else s

/-! ## PLM's low water (R160) -/

/-- The low-water test with the level just reported (R160). -/
def State.lowWaterTest (s : State) (level : Nat) : State :=
  if s.plm.lowWater = false ∧ level < s.tables.limits.lowLevelTrip then
    (s.withPlm { s.plm with lowWater := true }).raise .lowWater 0 level
  else if s.plm.lowWater = true ∧ s.tables.limits.lowLevelTrip + Config.lowWaterMargin ≤ level then
    (s.withPlm { s.plm with lowWater := false }).raise .waterOk 0 level
  else s

end Sys2Proof.Machine
end

