-- ==== Sys2Proof/Machine/Governor.lean ====
section
/-! DEFINITION. The pump governor (chapter 6): power function, ledger, allowed speeds, drive state reports, the command
computation. -/

namespace Sys2Proof.Machine

/-! ## Power and ledger (R96, R97) -/

/-- p(s) = floor(Prated × s³ / 10⁹), in W (R96). -/
def powerAt (prated speed : Nat) : Nat := prated * speed ^ 3 / 1000000000

/-- PRESENT and ON or POWERING_DOWN: the drives whose pump the governor commands (R97, R105). -/
def DriveRecord.governed (d : DriveRecord) : Bool := d.present && (d.power = .on || d.power = .poweringDown)

/-- The actual speed last reported; 0 when the record holds no telemetry (R97). -/
def DriveRecord.actual (d : DriveRecord) : Nat := (d.telemetry.map Telemetry.speed).getD 0

/-- The share that R97 sets for a drive record and a commanded speed. -/
def shareFor (prated : Nat) (d : DriveRecord) (commanded : Nat) : Nat :=
  if d.governed then powerAt prated commanded
  else if d.present && d.power = .underLocal then powerAt prated d.actual
  else 0

/-- The sum of the sixteen shares (R97). -/
def ledgerTotal (pumps : Vector PumpState 16) : Nat := (pumps.toList.map PumpState.share).sum

/-- One pump's values replaced and T recomputed. -/
def State.withPump (s : State) (i : Pump) (p : PumpState) : State :=
  s.withPgv { s.pgv with pumps := s.pgv.pumps.set i p, total := ledgerTotal (s.pgv.pumps.set i p) }

/-- A drive state report, or new telemetry of a LOCAL drive (R98, R99): C is kept for a drive ON or POWERING_DOWN and 0
otherwise, the share is set by R97, T is recomputed and the budget test made. -/
def State.driveReport (s : State) (i : Pump) : State :=
  let c := if s.dlc[i].governed then s.pgv.pumps[i].commanded else 0
  (s.withPump i { s.pgv.pumps[i] with commanded := c, share := shareFor s.tables.pumps[i].prated s.dlc[i] c }).budgetTest

/-- A drive report that takes C to 0 whatever the drive's new state (R130). -/
def State.driveReportAtRest (s : State) (i : Pump) : State :=
  (s.withPump i { s.pgv.pumps[i] with commanded := 0, share := shareFor s.tables.pumps[i].prated s.dlc[i] 0 }).budgetTest

/-- Adoption of a running drive's speed (R100). -/
def State.adopt (s : State) (i : Pump) (speed : Nat) : State :=
  (s.withPump i { s.pgv.pumps[i] with
    commanded := speed, share := powerAt s.tables.pumps[i].prated speed, lastCommand := s.now }).budgetTest

/-! ## Allowed speeds (R101–R103) -/

/-- The curve of a wind class; none for class NONE (R94). -/
def Tables.curve (t : Tables) : WindClass → Option WindCurve
  | .none => none
  | .low => some t.low
  | .mid => some t.mid
  | .tall => some t.tall

/-- The wind factor of a curve at wind speed `w` (R101). -/
def WindCurve.factor (k : WindCurve) (w : Nat) : Nat :=
  if w ≤ k.ws then 1000
  else if k.wf ≤ w then k.floor
  else k.floor + (1000 - k.floor) * (k.wf - w) / (k.wf - k.ws)

/-- A pump's ceiling for the wind, or its stale ceiling when the wind is STALE (none) (R101). -/
def Tables.ceiling (t : Tables) (i : Pump) (wind : Option Nat) : Nat :=
  match t.curve t.pumps[i].windClass with
  | none => t.pumps[i].ps
  | some k =>
    match wind with
    | some w => t.pumps[i].ps * k.factor w / 1000
    | none => t.pumps[i].ps * k.floor / 1000

/-- The wind the governor judges by: the last reported while FRESH, none while STALE (R101, R103). -/
def State.windNow (s : State) : Option Nat :=
  if s.plm.windDeadline.isSome then s.plm.windSpeed else none

/-- The update of one allowed speed (R102). -/
def allowedAfter (ceiling air allowed : Nat) : Nat :=
  if ceiling < allowed then ceiling else min ceiling (allowed + air)

/-- The update of all allowed speeds from the wind as it stands (R102, R103). -/
def State.updateAllowed (s : State) : State :=
  s.withPgv { s.pgv with
    pumps := tabulate fun i => { s.pgv.pumps[i] with
      allowed := allowedAfter (s.tables.ceiling i s.windNow) s.tables.limits.air s.pgv.pumps[i].allowed } }

/-- Every share recomputed from the kept C and the drive state, and T (R116). -/
def State.recomputeShares (s : State) : State :=
  let pumps : Vector PumpState 16 := tabulate fun i =>
    { s.pgv.pumps[i] with share := shareFor s.tables.pumps[i].prated s.dlc[i] s.pgv.pumps[i].commanded }
  s.withPgv { s.pgv with pumps := pumps, total := ledgerTotal pumps }

/-! ## The command computation (R104–R110) -/

/-- The largest speed not above `d` whose power is not above `h` (R107). -/
def fitSpeed (prated h : Nat) : Nat → Nat
  | 0 => 0
  | d + 1 => if powerAt prated (d + 1) ≤ h then d + 1 else fitSpeed prated h d

/-- Whether jet `j` is supplied by pump `i` (R93, R140). -/
def Tables.supplies (t : Tables) (i : Pump) (j : Jet) : Bool := t.jets[j].supply = some i

/-- The sum of the valve output table entries of the jets a pump supplies (R108). -/
def State.openingOf (s : State) (i : Pump) : Nat :=
  ((List.finRange 128).map fun j => if s.tables.supplies i j then s.out.valves[j] else 0).sum

/-- Whether the demand cap is 0: an emergency stop, a drive POWERING_DOWN, or low water (R106). -/
def State.broughtDown (s : State) (i : Pump) : Bool :=
  s.estop || s.dlc[i].power = .poweringDown || s.plm.lowWater

/-- Step 3: the budget fit of a demand `d1` (R107). -/
def State.budgetFit (s : State) (i : Pump) (d1 : Nat) : Nat :=
  let h := s.pgv.budget - (s.pgv.total - s.pgv.pumps[i].share)
  let d2 := fitSpeed s.tables.pumps[i].prated h d1
  if s.pgv.budget < s.pgv.total then min d2 s.pgv.pumps[i].commanded else d2

/-- Step 4: the run rules on `d2` (R108). -/
def State.runRules (s : State) (i : Pump) (d2 : Nat) : Nat :=
  let e := s.tables.pumps[i]
  if d2 < e.mr then 0
  else if 0 < e.mo ∧ s.openingOf i < e.mo then e.mr
  else d2

/-- The value d3 that steps 2 to 4 leave for the slew (R106–R108). -/
def State.aim (s : State) (i : Pump) (demand : Nat) : Nat :=
  if s.broughtDown i then 0
  else s.runRules i (s.budgetFit i (min demand s.pgv.pumps[i].allowed))

/-- The ramp-down rate of step 2 (R106). -/
def State.downRate (s : State) (i : Pump) : Nat :=
  if s.estop then s.tables.pumps[i].erd else s.tables.pumps[i].rd

/-- Δt of R104: at most 1000 ms. -/
def State.sinceCommand (s : State) (i : Pump) : Nat := min (elapsed s.now s.pgv.pumps[i].lastCommand) 1000

/-- The slew step of R109 toward `d3`: RU upward, the ramp-down rate downward. -/
def State.slewStep (s : State) (i : Pump) (d3 : Nat) : Nat :=
  if s.pgv.pumps[i].commanded < d3 then s.tables.pumps[i].ru * s.sinceCommand i / 1000
  else s.downRate i * s.sinceCommand i / 1000

/-- Step 5: one step from C toward `d3` (R109). -/
def State.slewed (s : State) (i : Pump) (d3 : Nat) : Nat :=
  let c := s.pgv.pumps[i].commanded
  if c < d3 then min d3 (c + s.slewStep i d3)
  else if d3 < c then max d3 (c - s.slewStep i d3)
  else c

/-- The command computation of pump `i` for the selected value `demand` (R104–R110): the state after it. The answer is the
commanded speed it leaves. While the configuration is OPEN the demand is taken as 0. -/
def State.computeCommand (s : State) (i : Pump) (demand : Nat) : State :=
  let p := s.pgv.pumps[i]
  if s.dlc[i].governed then
    let d3 := s.aim i (if s.configOpen then 0 else demand)
    let c := s.slewed i d3
    let kept := d3 ≠ p.commanded ∧ s.slewStep i d3 = 0
    (s.withPump i { p with
      commanded := c
      share := powerAt s.tables.pumps[i].prated c
      lastCommand := if kept then p.lastCommand else s.now }).budgetTest
  else
    s.withPgv { s.pgv with pumps := s.pgv.pumps.set i { p with commanded := 0, lastCommand := s.now } }

end Sys2Proof.Machine
end

