-- ==== Sys2Proof/Machine/DriveLine.lean ====
section
/-! DEFINITION. The drive line controller (chapter 7): power requests, the judgement of replies, power deadlines. -/

namespace Sys2Proof.Machine

/-- The state with one drive record replaced. -/
def State.withDrive (s : State) (i : Pump) (d : DriveRecord) : State := s.withDlc (s.dlc.set i d)

/-- One drive record replaced and the change reported to the governor (R98). -/
def State.changeDrive (s : State) (i : Pump) (d : DriveRecord) : State := (s.withDrive i d).driveReport i

/-- A lockout with held-off set stands on the pump (R71). -/
def State.heldOff (s : State) (i : Pump) : Bool :=
  (s.cha.records[pumpChannel i].lockout.map Lockout.heldOff).getD false

/-- A deadline PowerTimeout from now (R124, R129, R130). -/
def State.powerDeadline (s : State) : Time := after s.now s.tables.limits.powerTimeout

/-! ## Power requests (R132–R135) -/

/-- A request for off taken for a PRESENT drive (R133). A deadline in the record stands, also one that a POWER frame sent after a
return to ON has left (R137; notes/assumptions/39). -/
def State.takePowerOff (s : State) (i : Pump) : State :=
  let d := s.dlc[i]
  match d.power, d.pending with
  | .on, _ => s.changeDrive i { d with power := .poweringDown, pending := some ⟨.powerOff, s.now, .on, false⟩ }
  | .poweringUp, some p =>
    s.changeDrive i { d with power := .poweringDown, pending := some ⟨.powerOff, s.now, p.prior, false⟩ }
  | .poweringUp, none =>
    s.changeDrive i { d with power := .poweringDown, pending := some ⟨.powerOff, s.now, .poweringUp, false⟩ }
  | .off, _ | .poweringDown, _ | .underLocal, _ | .fault, _ => s

/-- A power-off taken without a response: for a held-off pump, or a drive found on one (R71, R133). -/
def State.holdOff (s : State) (i : Pump) : State := if s.dlc[i].present then s.takePowerOff i else s

/-- A request for on taken for a PRESENT drive, not held off and not in FAULT: cases 4 to 8 (R132). -/
def State.takePowerOn (s : State) (i : Pump) : State :=
  let d := s.dlc[i]
  match d.power, d.pending with
  | .off, _ => s.changeDrive i { d with power := .poweringUp, pending := some ⟨.powerOn, s.now, .off, false⟩ }
  | .poweringDown, some p =>
    match p.prior with
    | .on => s.changeDrive i { d with power := .on, pending := none, deadline := none }
    | .poweringUp => s.changeDrive i { d with power := .poweringUp, pending := none }
    | .off | .poweringDown | .underLocal | .fault =>
      s.changeDrive i { d with power := .poweringUp, pending := some ⟨.powerOn, s.now, p.prior, false⟩ }
  | .poweringDown, none =>
    s.changeDrive i { d with power := .poweringUp, pending := some ⟨.powerOn, s.now, .poweringDown, false⟩ }
  | .poweringUp, _ | .on, _ | .underLocal, _ | .fault, _ => s

/-- The presence and power state that the response body of a drive request carries (R132–R134). -/
def State.driveBody (s : State) (i : Pump) : List Byte :=
  bytes 1 (presenceCode s.dlc[i].present) ++ bytes 1 s.dlc[i].power.code

/-- A request for on (R132). -/
def powerOnRequest (i : Pump) (s : State) : Reply :=
  if s.dlc[i].present = false then (s, .driveAbsent, s.driveBody i)
  else if s.heldOff i then (s, .channelLocked, s.driveBody i)
  else if s.dlc[i].power = .fault then (s, .driveFaulted, s.driveBody i)
  else (s.takePowerOn i, .ok, (s.takePowerOn i).driveBody i)

/-- A request for off (R133). -/
def powerOffRequest (i : Pump) (s : State) : Reply :=
  if s.dlc[i].present = false then (s, .driveAbsent, s.driveBody i)
  else (s.takePowerOff i, .ok, (s.takePowerOff i).driveBody i)

/-- DRIVE_POWER: the body's checks, then the request it carries (R132). A BAD_ARGUMENT response has an empty body, also where the
index names a drive (notes/assumptions/9). -/
def drivePowerRequest (body : List Byte) (s : State) : Reply :=
  match body with
  | [d, r] =>
    match pumpOf d.toNat with
    | none => refuse s .badArgument
    | some i =>
      if r = 1 then powerOnRequest i s
      else if r = 0 then powerOffRequest i s
      else refuse s .badArgument
  | _ => refuse s .badArgument

/-- A well-formed DRIVE_POWER body with this request byte. DRIVE_POWER_ON takes every body but a well-formed request for off,
and DRIVE_POWER_OFF every body but a well-formed request for on (R132, R133; notes/assumptions/9). -/
def asksForPower (request : Byte) (body : List Byte) : Bool :=
  match body with
  | [d, r] => d.toNat < 16 && r = request
  | _ => false

/-- A CLEAR is pending and a frame has carried it (R134, R131). -/
def DriveRecord.clearFramed (d : DriveRecord) : Bool :=
  match d.pending with
  | some p => p.command = .clear && p.framed
  | none => false

/-- DRIVE_CLEAR (R134): a CLEAR already pending has its request time renewed, and stays the command that a frame may have carried
(notes/assumptions/18). A BAD_ARGUMENT response has an empty body (notes/assumptions/9). -/
def driveClearRequest (body : List Byte) (s : State) : Reply :=
  match body with
  | [b] =>
    match pumpOf b.toNat with
    | none => refuse s .badArgument
    | some i =>
      let d := s.dlc[i]
      if d.present = true ∧ d.power = .fault then
        let t := s.withDrive i { d with pending := some ⟨.clear, s.now, .fault, d.clearFramed⟩ }
        (t, .ok, t.driveBody i)
      else (s, .ok, s.driveBody i)
  | _ => refuse s .badArgument

/-- One drive's part of an accepted ARM (R135). -/
def State.armPowerOnFor (s : State) (i : Pump) : State :=
  let d := s.dlc[i]
  if d.present = true ∧ d.power = .off ∧ s.heldOff i = false then
    s.changeDrive i { d with power := .poweringUp, pending := some ⟨.powerOn, s.now, .off, false⟩ }
  else s

/-- The power-on of an accepted ARM: the sixteen records in turn (R135). -/
def State.armPowerOn (s : State) : State := (List.finRange 16).foldl State.armPowerOnFor s

/-! ## Which drives ask for the line (R87, R124) -/

/-- A command is ready (R87, R124). -/
def State.commandReady (s : State) (i : Pump) : Bool :=
  match s.dlc[i].pending with
  | some p =>
    match p.command with
    | .powerOn | .clear => true
    | .powerOff => s.pgv.pumps[i].commanded = 0
  | none => false

/-- The frame that delivers a command (R121, R124). -/
def DriveCommand.frame : DriveCommand → DriveFrame
  | .powerOn => .power true
  | .powerOff => .power false
  | .clear => .clear

/-- The frame that DLC builds for the drive chosen for a NULL slot: its pending command, and otherwise PROBE (R124). -/
def State.managementFrame (s : State) (i : Pump) : DriveFrame :=
  match s.dlc[i].pending with
  | some p => p.command.frame
  | none => .probe

/-- The record of a drive for which DLC has built a management frame: the pending command, if there is one, is marked as the one that
the frame carries (R124, R131, R136; notes/assumptions/18). -/
def DriveRecord.framing (d : DriveRecord) : DriveRecord :=
  { d with pending := d.pending.map fun p => { p with framed := true } }

/-! ## The judgement of replies (R122, R125–R131) -/

/-- The good reply of a reply window, if there is one: the frame that came, when it is a STATE or REFUSED frame with a correct
check from the drive addressed. A second frame in the window counts as no reply (R122; notes/assumptions/11). -/
def goodReply (d : Pump) (window : List ReplyFrame) : Option ReplyKind :=
  match window.head? with
  | some f =>
    match f.kind with
    | .state _ _ | .refused =>
      if f.address = d.val + 1 ∧ f.check = replyCheck f.address f.kind then some f.kind else none
    | .other => none
  | none => none

/-- The command that a frame delivers (R121, R124). -/
def DriveFrame.delivers : DriveFrame → Option DriveCommand
  | .power true => some .powerOn
  | .power false => some .powerOff
  | .clear => some .clear
  | .speed _ | .probe => none

/-- The command that the frame carried and that is still pending (R131, R136): one built into a frame, and not one that a request has put
in its place since (notes/assumptions/18). -/
def DriveRecord.stillPending (d : DriveRecord) (f : DriveFrame) : Option PendingCommand :=
  match d.pending with
  | some p => if p.framed = true ∧ f.delivers = some p.command then some p else none
  | none => none

/-- Telemetry as stored: the actual speed clamped to 1000 (R121). Every "reported actual speed" that a notice, a share or an
adoption takes is the one stored here (notes/assumptions/28). -/
def storedTelemetry (t : Telemetry) : Telemetry := { t with speed := min t.speed 1000 }

/-- The reply is a trip: TRIPPED, or a fault code other than 0 (R126, R130). -/
def isTrip (r : Reported) (t : Telemetry) : Bool := r = .tripped || t.faultCode ≠ 0

/-- The code of a trip: the reported fault code, or 255 when the drive reports TRIPPED with code 0 (R127). -/
def tripCode (t : Telemetry) : Nat := if t.faultCode = 0 then 255 else t.faultCode.toNat

/-- The third miss: the drive is lost (R125). -/
def State.loseDrive (s : State) (i : Pump) : State :=
  let d := s.dlc[i]
  let lost : DriveRecord := { d with
    present := false, power := .off, pending := none, deadline := none, fault := none, misses := 3 }
  (s.changeDrive i lost).raise .driveLost i.val s.pgv.pumps[i].commanded

/-- An exchange with a PRESENT drive that brought no good reply (R125). -/
def State.missReply (s : State) (i : Pump) : State :=
  let d := s.dlc[i]
  if d.misses + 1 < 3 then s.withDrive i { d with misses := d.misses + 1 } else s.loseDrive i

/-- A reported trip of a PRESENT drive whose telemetry is already stored (R127). -/
def State.trip (s : State) (i : Pump) (f : DriveFrame) (t : Telemetry) : State :=
  let d := s.dlc[i]
  let code := tripCode t
  if d.power ≠ .fault then
    (s.changeDrive i { d with power := .fault, fault := some (.trip code), pending := none, deadline := none }).raise
      .driveFault i.val code
  else
    match d.stillPending f with
    | some p =>
      if p.command = .clear then
        (s.withDrive i { d with fault := some (.trip code), pending := none }).raise .driveFault i.val code
      else s.withDrive i { d with fault := some (.trip code) }
    | none => s.withDrive i { d with fault := some (.trip code) }

/-- A PRESENT drive that reports LOCAL: entry into LOCAL, or new telemetry of a LOCAL drive (R126, R128). -/
def State.localReply (s : State) (i : Pump) : State :=
  let d := s.dlc[i]
  if d.power ≠ .underLocal then
    s.changeDrive i { d with power := .underLocal, pending := none, deadline := none, fault := none }
  else s.driveReport i

/-- The record of a drive judged as found, by what it reports (R130). -/
def State.foundRecord (s : State) (i : Pump) (r : Reported) (t : Telemetry) : DriveRecord :=
  let d : DriveRecord := { s.dlc[i] with pending := none, fault := none, deadline := none }
  if isTrip r t then { d with power := .fault, fault := some (.trip (tripCode t)) }
  else
    match r with
    | .off => { d with power := .off }
    | .starting => { d with power := .poweringUp, deadline := some s.powerDeadline }
    | .ready => { d with power := .on }
    | .stopping => { d with power := .poweringDown, deadline := some s.powerDeadline }
    | .underLocal => { d with power := .underLocal }
    | .tripped => { d with power := .fault, fault := some (.trip (tripCode t)) }

/-- The found drive's power state and the governor's part (R130): a drive READY at a speed above 0 is adopted, and one that returns
from local control (`returning`) is adopted at any speed (R100; notes/assumptions/29). -/
def State.takeFound (s : State) (i : Pump) (r : Reported) (t : Telemetry) (returning : Bool) : State :=
  let u := s.withDrive i (s.foundRecord i r t)
  if isTrip r t = false ∧ r = .ready ∧ (0 < t.speed ∨ returning = true) then u.adopt i t.speed else u.driveReportAtRest i

/-- The power-off of a drive found ON or POWERING_UP on a held-off pump (R130). -/
def State.foundHeldOff (s : State) (i : Pump) : State :=
  if s.heldOff i = true ∧ (s.dlc[i].power = .on ∨ s.dlc[i].power = .poweringUp) then s.takePowerOff i else s

/-- A drive found without a probe: by leaving local control, or by an OFF drive's report (R126, R129, R130). -/
def State.found (s : State) (i : Pump) (r : Reported) (t : Telemetry) : State :=
  let u := s.takeFound i r t (s.dlc[i].power = .underLocal)
  (if u.dlc[i].power = .on then u.raise .driveReady i.val t.speed else u).foundHeldOff i

/-- A probe answered by STATE (R130). DRIVE_FAULT is raised for every reply in the table's row "TRIPPED, or a fault code other than
0" (notes/assumptions/30). -/
def State.probeAnswered (s : State) (i : Pump) (r : Reported) (t : Telemetry) : State :=
  let d := s.dlc[i]
  let u := (s.withDrive i { d with present := true, misses := 0, telemetry := some t, age := 0 }).takeFound i r t false
  let v := u.raise .driveFound i.val t.speed
  (if isTrip r t then v.raise .driveFault i.val (tripCode t) else v).foundHeldOff i

/-- The delivered command is removed, and a delivered CLEAR that the drive did not answer with OFF raises DRIVE_FAULT afresh
(R129). -/
def State.settleDelivered (s : State) (i : Pump) (f : DriveFrame) (r : Reported) : State :=
  let d := s.dlc[i]
  match d.stillPending f with
  | some p =>
    let u := s.withDrive i { d with pending := none }
    match d.fault with
    | some c => if p.command = .clear ∧ r ≠ .off then u.raise .driveFault i.val c.detail else u
    | none => u
  | none => s

/-- Whether a CLEAR is pending or was just delivered by this exchange (R129). -/
def DriveRecord.clearing (d : DriveRecord) : Bool :=
  (d.pending.map fun p => decide (p.command = .clear)).getD false

/-- The table of R129, on the record after the delivered command is settled. It holds also for a reply to a frame whose command has been
replaced: OFF in POWERING_DOWN removes a POWER_OFF that has not been sent (R136; notes/assumptions/36). -/
def State.judgeState (s : State) (i : Pump) (r : Reported) (t : Telemetry) (clearing : Bool) : State :=
  let d := s.dlc[i]
  match d.power, r with
  | .off, .starting | .off, .ready => s.found i r t
  | .poweringUp, .ready =>
    (s.changeDrive i { d with power := .on, pending := none, deadline := none }).raise .driveReady i.val t.speed
  | .on, .off => s.changeDrive i { d with power := .off, deadline := none }
  | .on, .stopping => s.changeDrive i { d with power := .poweringDown, deadline := some s.powerDeadline }
  | .poweringDown, .off => s.changeDrive i { d with power := .off, pending := none, deadline := none }
  | .fault, .off =>
    if clearing then s.changeDrive i { d with power := .off, fault := none, pending := none, deadline := none } else s
  | _, _ => s

/-- A good STATE reply of a PRESENT drive (R126). -/
def State.stateReply (s : State) (i : Pump) (f : DriveFrame) (r : Reported) (t : Telemetry) : State :=
  let d := s.dlc[i]
  let u := s.withDrive i { d with misses := 0, telemetry := some t, age := 0 }
  if isTrip r t then u.trip i f t
  else if r = .underLocal then u.localReply i
  else if d.power = .underLocal then u.found i r t
  else (u.settleDelivered i f r).judgeState i r t d.clearing

/-- Whether a refusal removes the power deadline: prior state OFF, ON or FAULT (R131). -/
def refusalEndsDeadline : Power → Bool
  | .off | .on | .fault => true
  | .poweringUp | .poweringDown | .underLocal => false

/-- A REFUSED reply of a PRESENT drive (R131). -/
def State.refusedReply (s : State) (i : Pump) (f : DriveFrame) : State :=
  let d : DriveRecord := { s.dlc[i] with misses := 0 }
  match f.delivers with
  | none => s.withDrive i d
  | some c =>
    match d.stillPending f with
    | some p =>
      (s.changeDrive i { d with
        pending := none
        power := p.prior
        deadline := if refusalEndsDeadline p.prior then none else d.deadline }).raise .driveRefused i.val c.refusedDetail
    | none => (s.withDrive i d).raise .driveRefused i.val c.refusedDetail

/-- The completion of an exchange with drive `i` that carried frame `f`, by the good reply it brought, if it brought one (R122,
R125, R126, R130, R131). -/
def State.completeExchange (s : State) (i : Pump) (f : DriveFrame) (good : Option ReplyKind) : State :=
  match s.dlc[i].present, good with
  | true, some (.state r t) => s.stateReply i f r (storedTelemetry t)
  | true, some .refused => s.refusedReply i f
  | true, _ => s.missReply i
  | false, some (.state r t) => s.probeAnswered i r (storedTelemetry t)
  | false, _ => s

/-! ## Power deadlines (R137) -/

/-- The power deadline of a drive has been reached in a power transition (R137). -/
def State.powerExpired (s : State) (i : Pump) : Bool :=
  match s.dlc[i].deadline with
  | some t => (s.dlc[i].power = .poweringUp || s.dlc[i].power = .poweringDown) && reached s.now t
  | none => false

/-- The expiry of a power deadline (R137). -/
def State.powerTimeout (s : State) (i : Pump) : State :=
  (s.changeDrive i { s.dlc[i] with power := .fault, fault := some .powerTimeout, pending := none, deadline := none }).raise
    .driveFault i.val 256

end Sys2Proof.Machine
end

