-- ==== Sys2Proof/Machine/Cues.lean ====
section
/-! DEFINITION. The cue store (chapter 3): loading, clearing, evaluation, fade and rest cues. -/

namespace Sys2Proof.Machine

/-! ## Cues and lists -/

/-- The cue is PENDING (R38). -/
def Cue.isPending (k : Cue) : Bool :=
  match k.state with
  | .pending => true
  | .active _ _ => false

/-- The cue is ACTIVE (R38). -/
def Cue.isActive (k : Cue) : Bool := !k.isPending

/-- The cue was installed by the part: origin FADE or REST (R38). -/
def Cue.installed (k : Cue) : Bool := k.origin ≠ .loaded

/-- A channel's list replaced; the records it gave up return to the free list, those it took leave it (R39). -/
def Cst.withList (x : Cst) (c : Channel) (l : List Cue) : Cst :=
  { x with lists := x.lists.set c l, free := x.free + (x.lists[c]).length - l.length }

/-- The rest value of a channel, from the tables in use (R140, R146, R189). -/
def Tables.restValue (t : Tables) (c : Channel) : Value :=
  if h : c.val < 16 then .level t.pumps[c.val].rest
  else if h2 : c.val < 144 then .level (t.jets[c.val - 16]'(by omega)).rest
  else .colour (t.fixtures[c.val - 144]'(by omega)).rest

/-! ## Evaluation (R48–R52) -/

/-- The weight of EASE (R51) for elapsed time `e` of duration `d`. -/
def easeWeight (e d : Nat) : Nat :=
  let u := e * 1000 / d
  (3000 * u ^ 2 - 2 * u ^ 3) / 1000000

/-- The value of a ramp at elapsed time `e` of duration `d` along a curve (R50–R52). -/
def curveValue (curve : Curve) (fromValue target : Value) (e d : Nat) : Value :=
  if d = 0 then target
  else
    match curve with
    | .step => target
    | .linear => fromValue.ramp target e d
    | .ease => fromValue.ramp target (easeWeight e d) 1000

/-- The elapsed time of an ACTIVE cue at show time `t` and local time `now` (R50). An installed cue is timed in local time, as R50
and R54 say, and not in show time, as R14 says of the ramps of a fade (notes/assumptions/33). -/
def Cue.elapsedAt (k : Cue) (activation : Option Time) (t : Nat) (now : Time) : Nat :=
  if k.installed then min (elapsed now (activation.getD now)) k.duration else min (t - k.start) k.duration

/-- The show value that a list gives: by its ACTIVE cue, or the value as it was (R50). -/
def listValue (l : List Cue) (shown : Value) (t : Nat) (now : Time) : Value :=
  match l.find? Cue.isActive with
  | some k =>
    match k.state with
    | .active fromValue activation =>
      if k.installed = false ∧ t < k.start then shown
      else curveValue k.curve fromValue k.target (k.elapsedAt activation t now) k.duration
    | .pending => shown
  | none => shown

/-- The cue in force after an evaluation: the last cue with start at or before `t` (R49). -/
def lastDue (l : List Cue) (t : Nat) : Option Cue := (l.filter fun k => k.start ≤ t).getLast?

/-- The list after the activation of R49: the cues before the one that comes into force, and any ACTIVE cue, are retired. -/
def activatedList (l : List Cue) (shown : Value) (t : Nat) (now : Time) : List Cue :=
  match lastDue l t with
  | some k =>
    if k.isPending then
      { k with state := .active shown (if k.installed then some now else none) } ::
        l.filter fun x => decide (t < x.start) && x.isPending
    else l
  | none => l

/-- The cues that the activation of R49 passes over without their ever having been in force. -/
def skippedCues (l : List Cue) (t : Nat) : Nat :=
  match lastDue l t with
  | some k => if k.isPending then (l.filter fun x => decide (x.start ≤ t) && x.isPending).length - 1 else 0
  | none => 0

/-- Evaluation of channel `c` (R48–R52): activation, then the value, which becomes the show value; then, if a cue was retired,
the free-pool-low test (R46). -/
def State.evaluate (s : State) (c : Channel) : State :=
  let old := s.cst.lists[c]
  let shown := s.cst.shown[c]
  let new := activatedList old shown s.showTime s.now
  let x := s.cst.withList c new
  let u := s.withCst { x with
    shown := x.shown.set c (listValue new shown s.showTime s.now)
    skipped := min (x.skipped + skippedCues old s.showTime) Config.count32Max }
  if new.length < old.length then u.poolLowTest else u

/-! ## Loading (R41–R45) -/

/-- A cue entry that passed the checks of R42, decoded and clamped. -/
structure CueEntry where
  channel : Channel
  start : Nat
  duration : Nat
  curve : Curve
  target : Value
deriving DecidableEq, Repr

/-- The curve codes of R41. -/
def curveOf (n : Nat) : Option Curve :=
  match n with
  | 0 => some .step
  | 1 => some .linear
  | 2 => some .ease
  | _ => none

/-- The check and normalisation of an entry's sixteen bytes (R42). -/
def cueEntryOf (e : List Byte) : Option CueEntry :=
  match channelOf (field e 0 2), curveOf (field e 10 1) with
  | some c, some k =>
    if field e 2 4 ≤ Config.lastShowMs then
      some ⟨c, field e 2 4, min (field e 6 4) 600000, k, decodeValue c ((e.drop 11).take 5)⟩
    else none
  | _, _ => none

/-- The new PENDING cue of an entry (R43). -/
def CueEntry.cue (e : CueEntry) : Cue := ⟨e.start, e.duration, e.curve, e.target, .loaded, .pending⟩

/-- Insertion at the place in start order (R43). -/
def insertCue (k : Cue) : List Cue → List Cue
  | [] => [k]
  | x :: xs => if k.start < x.start then k :: x :: xs else x :: insertCue k xs

/-- The update in place of the cue with the same start (R43). -/
def CueEntry.update (e : CueEntry) (k : Cue) : Cue :=
  if k.start = e.start then
    { k with
      duration := e.duration
      curve := e.curve
      target := e.target
      origin := .loaded
      state :=
        match k.state with
        | .pending => .pending
        | .active v _ => .active v none }
  else k

/-- The storing of one checked entry (R43). -/
def storeCue (e : CueEntry) (x : Cst) (n : Tally) : Cst × Tally :=
  let l := x.lists[e.channel]
  if l.any fun k => k.start = e.start then (x.withList e.channel (l.map e.update), n.two)
  else if l.any fun k => k.isActive && decide (e.start < k.start) then
    (x.withList e.channel (insertCue e.cue (l.filter fun k => !(k.isActive && decide (e.start < k.start)))), n.one)
  else if x.free = 0 then (x, n.refuse .poolFull)
  else (x.withList e.channel (insertCue e.cue l), n.one)

/-- The processing of one entry of a CUE_LOAD (R42, R43). -/
def loadEntry (acc : Cst × Tally) (e : List Byte) : Cst × Tally :=
  match cueEntryOf e with
  | some k => storeCue k acc.1 acc.2
  | none => (acc.1, acc.2.refuse .badArgument)

/-- The entries of a CUE_LOAD in the order in which they stand in the body (R41). -/
def cueEntries (body : List Byte) : List (List Byte) := pieces 16 (body.length / 16) body

/-- CUE_LOAD (R41–R46). -/
def cueLoadRequest (body : List Byte) (s : State) : Reply :=
  if body.length = 0 ∨ body.length % 16 ≠ 0 ∨ 1024 < body.length then refuse s .badArgument
  else if s.estop then refuse s .estopActive
  else if s.seq.showState = .unconfigured ∨ s.seq.showState = .fading then refuse s .busyState
  else
    let r := (cueEntries body).foldl loadEntry (s.cst, Tally.zero)
    ((s.withCst r.1).poolLowTest, r.2.result,
      bytes 1 r.2.first ++ bytes 1 r.2.second ++ bytes 1 r.2.refused ++ bytes 1 r.2.firstIndex ++ bytes 1 r.2.reason.code ++
        bytes 2 r.1.free)

/-! ## Clearing (R47, R53–R56) -/

/-- The cues that CUE_CLEAR leaves in a channel's list (R47). The starts are compared as given, also with a from_ms beyond 86,399,999,
so that a PENDING installed cue that starts there is retired (notes/assumptions/38). -/
def keptByClear (first last fromMs : Nat) (c : Channel) (l : List Cue) : List Cue :=
  if first ≤ c.val ∧ c.val ≤ last then l.filter fun k => !(k.isPending && decide (fromMs ≤ k.start)) else l

/-- The number of records in all cue lists (R39). -/
def listedCues (lists : Vector (List Cue) 336) : Nat := (lists.toList.map List.length).sum

/-- CUE_CLEAR (R47). -/
def cueClearRequest (body : List Byte) (s : State) : Reply :=
  if body.length ≠ 8 ∨ 335 < field body 2 2 ∨ field body 2 2 < field body 0 2 then refuse s .badArgument
  else if s.estop then refuse s .estopActive
  else if s.seq.showState = .unconfigured ∨ s.seq.showState = .fading then refuse s .busyState
  else
    let lists : Vector (List Cue) 336 :=
      tabulate fun c => keptByClear (field body 0 2) (field body 2 2) (field body 4 4) c s.cst.lists[c]
    let retired := listedCues s.cst.lists - listedCues lists
    ((s.withCst { s.cst with lists := lists, free := s.cst.free + retired }).poolLowTest, .ok,
      bytes 2 retired ++ bytes 2 (s.cst.free + retired))

/-- Clearing with no installation (R53). -/
def State.clearCues (s : State) : State :=
  s.withCst { s.cst with lists := uniform 336 [], free := Config.poolSize }

/-- Clearing and the installation of one cue per channel, taken whole, with the test of R46 at its end (R53). -/
def State.installCues (s : State) (origin : Origin) (duration : Nat) (curve : Curve) : State :=
  (s.withCst { s.cst with
    lists := tabulate fun c => [⟨s.showTime, duration, curve, s.tables.restValue c, origin, .pending⟩]
    free := Config.poolSize - 336 }).poolLowTest

/-- The fade cues of STOP and of the end of the show (R54). -/
def State.installFade (s : State) : State := s.installCues .fade s.tables.limits.fadeTime .linear

/-- The rest cues of an emergency stop entry (R55). -/
def State.installRest (s : State) : State := s.installCues .rest 0 .step

/-- Every show value at its rest value (R56). -/
def State.restShown (s : State) : State := s.withCst { s.cst with shown := tabulate s.tables.restValue }

end Sys2Proof.Machine
end

