-- ==== Sys2Proof/Machine/Sequencer.lean ====
section
/-! DEFINITION. The show sequencer (chapter 1): its record's changes, and what the show-control requests and SEQ's own events
do. -/

namespace Sys2Proof.Machine

/-- What PLU has handed SEQ is dropped: it concerned the show state that is left (R31). -/
def Seq.clearAsked (q : Seq) : Seq := { q with holdAsked := false, endReached := false, fadeReached := false }

/-- The three fields whose change raises SHOW_STATE (R5). -/
def Seq.shownFields (q : Seq) : ShowState × Option HoldCause × IdleCause := (q.showState, q.holdCause, q.idleCause)

/-- The record becomes `q`, and what PLU handed over is dropped when the show state changes (R31). -/
def Seq.become (old q : Seq) : Seq := if q.showState = old.showState then q else q.clearAsked

/-- SEQ's record becomes `q`: the starvation count is set to 0 when SEQ enters RUNNING (R32), and SHOW_STATE is raised with the
show position when the show state, hold cause or idle cause has a new value (R5). -/
def State.seqTake (s : State) (q : Seq) : State :=
  let u := s.withSeq (s.seq.become q)
  let v := if q.showState = .running ∧ s.seq.showState ≠ .running then u.withPlu { u.plu with starvation := 0 } else u
  if q.shownFields = s.seq.shownFields then v else v.raise .showState 0 v.plu.position

/-- The audio queue is flushed (R27, R28). -/
def State.flushAudio (s : State) : State := s.withPlu { s.plu with queue := [] }

/-! ## ARM (R6, R7) -/

/-- The start position of an ARM: start_ms clamped, in frames (R6, R7). -/
def armStartMs (body : List Byte) : Nat := min (field body 0 4) Config.lastShowMs

/-- end_ms of an ARM, clamped; absent when its bytes are FFFFFFFFh (R6, R185). -/
def armEndMs (body : List Byte) : Option Nat :=
  if field body 4 4 = Config.count32Max then none else some (min (field body 4 4) Config.lastEndMs)

/-- end_ms is present and not greater than the clamped start_ms (R6). -/
def armEndTooEarly (body : List Byte) : Bool :=
  match armEndMs body with
  | some e => e ≤ armStartMs body
  | none => false

/-- An accepted ARM (R7, R28, R135). -/
def State.takeArm (s : State) (startMs : Nat) (endMs : Option Nat) (silent : Bool) : State :=
  let u := s.withPlu { s.plu with position := startMs * Config.framesPerMs, queue := [], starvation := 0 }
  u.armPowerOn.seqTake { s.seq with
    showState := .armed
    endPosition := endMs.map fun e => e * Config.framesPerMs
    silent := silent
    startDeadline := none }

/-- ARM (R6). -/
def armRequest (body : List Byte) (s : State) : Reply :=
  if body.length ≠ 9 then refuse s .badArgument
  else if s.estop then refuse s .estopActive
  else
    match s.seq.showState with
    | .unconfigured => refuse s .notConfigured
    | .armed | .running | .hold | .fading => refuse s .busyState
    | .idle =>
      if armEndTooEarly body then refuse s .badArgument
      else (s.takeArm (armStartMs body) (armEndMs body) (decide (field body 8 1 ≠ 0)), .ok, [])

/-! ## START, PAUSE, RESUME (R8, R11, R12) -/

/-- The show becomes RUNNING; a pending start and a hold cause are over (R8, R9, R12, R13). -/
def State.run (s : State) : State :=
  s.seqTake { s.seq with showState := .running, holdCause := none, startDeadline := none }

/-- START (R8). -/
def startRequest (s : State) : Reply :=
  match s.seq.showState with
  | .armed =>
    match s.seq.startDeadline with
    | some _ => (s, .ok, [])
    | none =>
      if s.seq.silent = true ∨ s.tables.limits.startLevel ≤ s.plu.lead then (s.run, .ok, [])
      else (s.withSeq { s.seq with startDeadline := some (after s.now s.tables.limits.startTimeout) }, .ok, [])
  | .unconfigured | .idle | .running | .hold | .fading =>
    if s.estop then refuse s .estopActive else refuse s .busyState

/-- The show becomes HOLD with a cause (R11–R13). -/
def State.holdFor (s : State) (cause : HoldCause) : State :=
  s.seqTake { s.seq with showState := .hold, holdCause := some cause }

/-- PAUSE (R11). -/
def pauseRequest (s : State) : Reply :=
  match s.seq.showState with
  | .running | .hold => (s.holdFor .paused, .ok, [])
  | .unconfigured | .idle | .armed | .fading => refuse s .busyState

/-- RESUME (R12). -/
def resumeRequest (s : State) : Reply :=
  match s.seq.showState with
  | .hold =>
    if s.seq.holdCause = some .paused then
      if s.seq.silent = true ∨ s.tables.limits.resumeLevel ≤ s.plu.lead then (s.run, .ok, [])
      else (s.holdFor .starved, .ok, [])
    else (s, .ok, [])
  | .running => (s, .ok, [])
  | .unconfigured | .idle | .armed | .fading => refuse s .busyState

/-! ## STOP and the end of the show (R14–R16) -/

/-- What STOP and the end of the show do (R14, R16): fade cues, flush, fade end and cause, FADING. -/
def State.fadeOut (s : State) (cause : FadeCause) : State :=
  (s.installFade.flushAudio).seqTake { s.seq with
    showState := .fading
    holdCause := none
    startDeadline := none
    fadeEnd := some (s.plu.position + s.tables.limits.fadeTime * Config.framesPerMs)
    fadeCause := some cause }

/-- STOP (R14). -/
def stopRequest (s : State) : Reply :=
  match s.seq.showState with
  | .unconfigured => refuse s .notConfigured
  | .idle => (s, .ok, [])
  | .armed | .running | .hold => (s.fadeOut .stopped, .ok, [])
  | .fading => (s.withSeq { s.seq with fadeEnd := some s.plu.position, fadeCause := some .stopped }, .ok, [])

/-- The idle cause that a fade cause records (R15). -/
def FadeCause.idle : FadeCause → IdleCause
  | .stopped => .stopped
  | .ended => .ended

/-- The record in IDLE with an idle cause: everything present only during a show is removed (R15, R17). -/
def Seq.idleWith (q : Seq) (cause : IdleCause) : Seq :=
  { q with
    showState := .idle
    holdCause := none
    idleCause := cause
    startDeadline := none
    endPosition := none
    fadeEnd := none
    fadeCause := none
    silent := false }

/-- The end of a fade (R15). -/
def State.endFade (s : State) : State :=
  s.seqTake (s.seq.idleWith ((s.seq.fadeCause.map FadeCause.idle).getD s.seq.idleCause))

/-! ## What PLU hands SEQ at an output frame event (R13, R15, R16, R31) -/

/-- FADE_END can be taken: an output frame event in FADING has reached the fade end (R15). -/
def State.fadeDue (s : State) : Bool := s.seq.showState = .fading && s.seq.fadeReached

/-- END_OF_SHOW can be taken: an output frame event in RUNNING has reached the end (R16). -/
def State.endDue (s : State) : Bool := s.seq.showState = .running && s.seq.endReached

/-- STARVATION_HOLD can be taken: PLU has asked for a hold in RUNNING (R13, R33). -/
def State.holdDue (s : State) : Bool := s.seq.showState = .running && s.seq.holdAsked

/-- What SEQ was handed at one output frame event is taken before the next (R31; notes/assumptions/5). -/
def State.settleSeq (s : State) : State :=
  if s.fadeDue then s.endFade
  else if s.endDue then s.fadeOut .ended
  else if s.holdDue then s.holdFor .starved
  else s

/-- The start deadline has been reached (R10). -/
def State.startExpired (s : State) : Bool :=
  match s.seq.startDeadline with
  | some t => s.seq.showState = .armed && reached s.now t
  | none => false

/-- The expiry of the start deadline (R10). -/
def State.startTimeout (s : State) : State :=
  (s.withSeq { s.seq with startDeadline := none }).raise .startTimeout 0 s.plu.lead

/-- PLU's report of the lead after an accepted arrival in ARMED or HOLD (R9, R13, R25). -/
def State.reportLead (s : State) : State :=
  if s.seq.showState = .armed ∧ s.seq.startDeadline.isSome = true ∧ s.tables.limits.startLevel ≤ s.plu.lead then s.run
  else if s.seq.showState = .hold ∧ s.seq.holdCause = some .starved ∧ s.tables.limits.resumeLevel ≤ s.plu.lead then s.run
  else s

/-! ## Emergency stop, configuration, RESTART (R17–R19) -/

/-- SEQ's part of an emergency stop entry (R17). -/
def State.seqEstop (s : State) : State :=
  if s.seq.showState = .unconfigured then s else s.seqTake (s.seq.idleWith .estop)

/-- SEQ's part of an accepted CONFIG_OPEN (R18). -/
def State.seqOpen (s : State) : State := s.seqTake { s.seq with showState := .unconfigured }

/-- The idle cause after a commit (R18). -/
def ResetOrigin.idle : ResetOrigin → IdleCause
  | .cold => .cold
  | .restart => .restart

/-- SEQ's part of a successful CONFIG_COMMIT (R18). -/
def State.seqCommit (s : State) : State :=
  s.seqTake { s.seq with showState := .idle, idleCause := s.seq.resetOrigin.idle }

/-- The sequencer record that RESTART sets (R19). -/
def Seq.restarted (valid : Bool) : Seq :=
  { Seq.cold with
    showState := if valid then .idle else .unconfigured
    idleCause := .restart
    resetOrigin := .restart }

/-! ## The commands -/

/-- ARM, from the SHOW port (R6, R7). -/
def execArm (s : State) : Host.Outcome State Fault Refusal := .next (s.serve .showPort 0x10 armRequest)

/-- START, from the SHOW port (R8). -/
def execStart (s : State) : Host.Outcome State Fault Refusal := .next (s.serve .showPort 0x11 (bodiless startRequest))

/-- PAUSE (R11). -/
def execPause (p : Port) (s : State) : Host.Outcome State Fault Refusal := .next (s.serve p 0x12 (bodiless pauseRequest))

/-- RESUME (R12). -/
def execResume (p : Port) (s : State) : Host.Outcome State Fault Refusal := .next (s.serve p 0x13 (bodiless resumeRequest))

/-- STOP (R14). -/
def execStop (p : Port) (s : State) : Host.Outcome State Fault Refusal := .next (s.serve p 0x14 (bodiless stopRequest))

/-- STARVATION_HOLD: SEQ takes the hold that PLU asked for (R13, R33). -/
def execStarvationHold (s : State) : Host.Outcome State Fault Refusal :=
  .next (if s.holdDue then s.holdFor .starved else s)

/-- END_OF_SHOW (R16). -/
def execEndOfShow (s : State) : Host.Outcome State Fault Refusal := .next (if s.endDue then s.fadeOut .ended else s)

/-- FADE_END (R15). -/
def execFadeEnd (s : State) : Host.Outcome State Fault Refusal := .next (if s.fadeDue then s.endFade else s)

/-- START_DEADLINE_EXPIRY (R10). -/
def execStartDeadlineExpiry (s : State) : Host.Outcome State Fault Refusal :=
  .next (if s.startExpired then s.startTimeout else s)

end Sys2Proof.Machine
end

