-- ==== Sys2Proof/Machine/Music.lean ====
section
/-! DEFINITION. Music playout (chapter 2): arrivals, flushing, volume, the output frame event. -/

namespace Sys2Proof.Machine

/-! ## Arrival of a block (R20, R23–R25) -/

/-- The frame count field of an AUDIO_BLOCK body (R20). -/
def blockCount (body : List Byte) : Nat := field body 4 2

/-- A well-formed AUDIO_BLOCK body (R23). -/
def blockOk (body : List Byte) : Bool :=
  6 ≤ body.length && 1 ≤ blockCount body && blockCount body ≤ Config.blockFrames &&
    body.length = 6 + 6 * blockCount body && field body 0 4 + blockCount body ≤ 4294967296

/-- The frames of an AUDIO_BLOCK body: left sample, then right (R20). -/
def blockFrames (body : List Byte) : List Frame :=
  (pieces 6 (blockCount body) (body.drop 6)).map fun p => ⟨signed24 (field p 0 3), signed24 (field p 3 3)⟩

/-- The block of an AUDIO_BLOCK body (R20). -/
def blockOf (body : List Byte) : AudioBlock := ⟨field body 0 4, blockFrames body⟩

/-- The front trim: the frames before `e` are dropped (R24). -/
def AudioBlock.trimTo (b : AudioBlock) (e : Nat) : AudioBlock := ⟨e, b.frames.drop (e - b.position)⟩

/-- The response body of AUDIO_BLOCK (R25). R23 lets a block end at exactly 2^32, so the expected next position, and at position 0
the lead, can be 2^32, which four bytes do not hold: the field then carries a free value (notes/assumptions/27). -/
def Plu.positionBody (p : Plu) : List Byte := positionField p.expectedNext ++ positionField p.lead

/-- A block joins the tail of the queue; then re-arming, and the report to SEQ (R24, R25). -/
def State.queueBlock (s : State) (b : AudioBlock) : State :=
  ((s.withPlu { s.plu with queue := s.plu.queue ++ [b] }).lowMarkRearm).reportLead

/-- A well-formed block taken in ARMED, RUNNING or HOLD (R24). -/
def State.judgeBlock (s : State) (b : AudioBlock) : State × Result :=
  let e := s.plu.expectedNext
  if b.endPos ≤ e then (s, .late)
  else if Config.audioBlocks ≤ s.plu.queue.length then (s, .queueFull)
  else if b.position < e then (s.queueBlock (b.trimTo e), .trimmed)
  else (s.queueBlock b, .ok)

/-- AUDIO_BLOCK (R23). -/
def audioBlockRequest (body : List Byte) (s : State) : Reply :=
  if blockOk body = false then (s, .badArgument, s.plu.positionBody)
  else if s.estop then (s, .estopActive, s.plu.positionBody)
  else
    match s.seq.showState with
    | .idle | .unconfigured | .fading => (s, .busyState, s.plu.positionBody)
    | .armed | .running | .hold =>
      ((s.judgeBlock (blockOf body)).1, (s.judgeBlock (blockOf body)).2, (s.judgeBlock (blockOf body)).1.plu.positionBody)

/-! ## Flush and volume (R27, R29) -/

/-- AUDIO_FLUSH (R27): in RUNNING the low-mark test follows. -/
def audioFlushRequest (s : State) : Reply := (s.flushAudio.lowMarkTest, .ok, [])

/-- VOLUME (R29). -/
def volumeRequest (body : List Byte) (s : State) : Reply :=
  if body.length ≠ 2 then refuse s .badArgument
  else (s.withPlu { s.plu with volume := min (field body 0 2) 1000 }, .ok, [])

/-! ## The output frame event (R30–R33, R35) -/

/-- Silence (R20). -/
def Frame.silence : Frame := ⟨0, 0⟩

/-- The frame chosen for the current position in RUNNING and FADING (R30). -/
def Plu.chosen (p : Plu) : Frame :=
  match p.queue with
  | b :: _ => if b.position ≤ p.position then (b.frames[p.position - b.position]?).getD .silence else .silence
  | [] => .silence

/-- Scaling by the volume, truncated toward zero (R30). -/
def Frame.scaled (f : Frame) (volume : Nat) : Frame :=
  ⟨(f.left * (volume : Int)).tdiv 1000, (f.right * (volume : Int)).tdiv 1000⟩

/-- The volume that scales: 0 while an emergency stop is in effect (R30). -/
def State.soundingVolume (s : State) : Nat := if s.estop then 0 else s.plu.volume

/-- The show clock runs: RUNNING or FADING (R3). -/
def State.clockRuns (s : State) : Bool := s.seq.showState = .running || s.seq.showState = .fading

/-- The frame that an output frame event puts out (R30). -/
def State.frameOut (s : State) : Frame := if s.clockRuns then s.plu.chosen.scaled s.soundingVolume else .silence

/-- The starvation count after an output frame event (R32). -/
def State.starvationAfter (s : State) : Nat :=
  if s.seq.showState = .running ∧ s.seq.silent = false then
    if s.plu.queue = [] then s.plu.starvation + 1 else 0
  else s.plu.starvation

/-- The queue after the position has advanced: the head is retired when its end is at or before the new position (R31). -/
def Plu.retired (p : Plu) : List AudioBlock :=
  match p.queue with
  | b :: bs => if b.endPos ≤ p.position + 1 then bs else b :: bs
  | [] => []

/-- The end position, when one is recorded, or the day limit has been reached at position `n` (R16). -/
def Seq.endAt (q : Seq) (n : Nat) : Bool :=
  Config.dayLimit ≤ n ||
    match q.endPosition with
    | some e => e ≤ n
    | none => false

/-- The fade end has been reached at position `n` (R15). -/
def Seq.fadeEndAt (q : Seq) (n : Nat) : Bool :=
  match q.fadeEnd with
  | some e => e ≤ n
  | none => false

/-- What PLU hands SEQ after the advance to position `n` (R31): a hold asked for when an empty frame has brought the starvation
count to StarveGrace (R33), and the comparisons of R15 and R16. -/
def State.handedAt (s : State) (n : Nat) : Seq :=
  { s.seq with
    holdAsked := s.seq.holdAsked || (decide (s.seq.showState = .running ∧ s.seq.silent = false ∧ s.plu.queue = []) &&
      decide (s.tables.limits.starveGrace ≤ s.plu.starvation + 1))
    endReached := s.seq.endReached || (decide (s.seq.showState = .running) && s.seq.endAt n)
    fadeReached := s.seq.fadeReached || (decide (s.seq.showState = .fading) && s.seq.fadeEndAt n) }

/-- PLU's part of an output frame event (R30–R33, R35). -/
def State.outputFrame (s : State) : State :=
  let played := s.withPlu { s.plu with output := s.frameOut }
  if s.clockRuns then
    ((played.withPlu { played.plu with
        position := s.plu.position + 1
        queue := s.plu.retired
        starvation := s.starvationAfter }).withSeq (s.handedAt (s.plu.position + 1))).lowMarkTest
  else played

/-! ## The commands -/

/-- AUDIO_BLOCK, from the SHOW port (R23). -/
def execAudioBlock (s : State) : Host.Outcome State Fault Refusal := .next (s.serve .showPort 0x1A audioBlockRequest)

/-- AUDIO_FLUSH, from the SHOW port (R27). -/
def execAudioFlush (s : State) : Host.Outcome State Fault Refusal :=
  .next (s.serve .showPort 0x1B (bodiless audioFlushRequest))

/-- VOLUME (R29). -/
def execVolume (p : Port) (s : State) : Host.Outcome State Fault Refusal := .next (s.serve p 0x1C volumeRequest)

/-- OUTPUT_FRAME_EVENT (R30–R33): what SEQ was handed at the frame before is taken first (notes/assumptions/5). -/
def execOutputFrameEvent (s : State) : Host.Outcome State Fault Refusal := .next s.settleSeq.outputFrame

/-- CUE_LOAD, from the SHOW port (R41). -/
def execCueLoad (s : State) : Host.Outcome State Fault Refusal := .next (s.serve .showPort 0x18 cueLoadRequest)

/-- CUE_CLEAR, from the SHOW port (R47). -/
def execCueClear (s : State) : Host.Outcome State Fault Refusal := .next (s.serve .showPort 0x19 cueClearRequest)

end Sys2Proof.Machine
end

