-- ==== Sys2Proof/Machine/Ownership.lean ====
section
/-! DEFINITION. The channel arbiter (chapter 4): claims, lockouts, rejoins, the selected value. -/

namespace Sys2Proof.Machine

/-! ## Values (R60–R62) -/

/-- The manual output of a claim at local time `now` (R60, R62). -/
def Claim.output (k : Claim) (now : Time) : Value :=
  if k.ramp = 0 then k.target
  else k.value.ramp k.target (min (elapsed now k.setTime) k.ramp) k.ramp

/-- The blend of a rejoin toward the show value (R61). -/
def Rejoin.output (r : Rejoin) (shown : Value) (now : Time) : Value :=
  if r.duration ≤ elapsed now r.start then shown else r.fromValue.ramp shown (elapsed now r.start) r.duration

/-- The rejoin is complete at local time `now` (R61). -/
def Rejoin.complete (r : Rejoin) (now : Time) : Bool := r.duration ≤ elapsed now r.start

/-- The value that R60 and R61 select from a record at local time `now`. -/
def Ownership.output (o : Ownership) (shown : Value) (now : Time) : Value :=
  match o.lockout with
  | some l => l.value
  | none =>
    match o.claim with
    | some k => k.output now
    | none =>
      match o.rejoin with
      | some r => r.output shown now
      | none => shown

/-- The current output value of a channel (R62). -/
def State.currentOutput (s : State) (c : Channel) : Value := s.cha.records[c].output s.cst.shown[c] s.now

/-- The state with one ownership record replaced. -/
def State.withRecord (s : State) (c : Channel) (o : Ownership) : State :=
  s.withCha { s.cha with records := s.cha.records.set c o }

/-- The state with the claim count replaced. -/
def State.withClaimCount (s : State) (n : Nat) : State := s.withCha { s.cha with claimCount := n }

/-- A selection of channel `c` removes a rejoin that it finds complete (R61). A rejoin under a claim or lockout is no SHOW
selection's. -/
def State.dropCompleteRejoin (s : State) (c : Channel) : State :=
  let o := s.cha.records[c]
  match o.lockout, o.claim, o.rejoin with
  | none, none, some r => if r.complete s.now then s.withRecord c { o with rejoin := none } else s
  | _, _, _ => s

/-- The rejoin time of the channel's kind (R67). -/
def Limits.rejoinTime (l : Limits) (c : Channel) : Nat :=
  match kindOf c with
  | .pump => l.pumpRejoin
  | .jet => l.jetRejoin
  | .fixture => l.fixtureRejoin

/-- A lease from now (R64, R66). -/
def State.newLease (s : State) : Time := after s.now s.tables.limits.lease

/-! ## CLAIM (R63–R65) -/

/-- A refreshed claim (R64): a completed manual ramp settles at its target with the SET time moved forward. -/
def State.refreshed (s : State) (k : Claim) : Claim :=
  let k' : Claim := { k with lease := s.newLease }
  if k.ramp = 0 ∨ k.ramp ≤ elapsed s.now k.setTime then { k' with value := k.target, setTime := s.now } else k'

/-- One channel of a CLAIM (R64). -/
def State.claimChannel (s : State) (n : Tally) (c : Channel) : State × Tally :=
  let o := s.cha.records[c]
  if o.lockout.isSome then (s, n.refuse .channelLocked)
  else
    match o.claim with
    | some k => (s.withRecord c { o with claim := some (s.refreshed k) }, n.two)
    | none =>
      if Config.claimLimit ≤ s.cha.claimCount then (s, n.refuse .claimLimit)
      else
        let v := s.currentOutput c
        ((s.withRecord c { o with claim := some ⟨v, v, s.now, 0, s.newLease⟩, rejoin := none }).withClaimCount
          (s.cha.claimCount + 1), n.one)

/-- One channel number of a request's list: above 335 it is refused BAD_ARGUMENT (R64, R67, R70, R72). -/
def perChannel (f : State → Tally → Channel → State × Tally) (acc : State × Tally) (n : Nat) : State × Tally :=
  match channelOf n with
  | some c => f acc.1 acc.2 c
  | none => (acc.1, acc.2.refuse .badArgument)

/-- The channels of a list, in the order in which they stand (R63, R67, R69, R72). -/
def State.eachChannel (s : State) (f : State → Tally → Channel → State × Tally) (ns : List Nat) : State × Tally :=
  ns.foldl (perChannel f) (s, Tally.zero)

/-- CLAIM (R63, R65). -/
def claimRequest (body : List Byte) (s : State) : Reply :=
  if channelListOk body = false then refuse s .badArgument
  else if s.estop then refuse s .estopActive
  else
    let r := s.eachChannel State.claimChannel (channelList body)
    (r.1, r.2.result,
      bytes 1 r.2.first ++ bytes 1 r.2.second ++ bytes 1 r.2.refused ++ bytes 1 r.2.firstIndex ++ bytes 1 r.2.reason.code ++
        bytes 1 r.1.cha.claimCount)

/-! ## SET (R66) -/

/-- SET (R66). -/
def setRequest (body : List Byte) (s : State) : Reply :=
  if body.length ≠ 11 then refuse s .badArgument
  else
    match channelOf (field body 0 2) with
    | none => refuse s .badArgument
    | some c =>
      if s.estop then refuse s .estopActive
      else
        let o := s.cha.records[c]
        if o.lockout.isSome then refuse s .channelLocked
        else
          match o.claim with
          | none => refuse s .notOwner
          | some k =>
            let k' : Claim :=
              ⟨k.output s.now, decodeValue c ((body.drop 2).take 5), s.now, min (field body 7 4) 60000, s.newLease⟩
            (s.withRecord c { o with claim := some k' }, .ok, bytes 4 s.newLease.toNat)

/-! ## RELEASE and lease expiry (R67, R68) -/

/-- A claim ends and its channel rejoins the show from the manual output (R67, R68). -/
def State.endClaim (s : State) (c : Channel) (k : Claim) : State :=
  (s.withRecord c { s.cha.records[c] with
    claim := none, rejoin := some ⟨k.output s.now, s.now, s.tables.limits.rejoinTime c⟩ }).withClaimCount
      (s.cha.claimCount - 1)

/-- One channel of a RELEASE (R67). -/
def State.releaseChannel (s : State) (n : Tally) (c : Channel) : State × Tally :=
  match s.cha.records[c].claim with
  | some k => (s.endClaim c k, n.one)
  | none => (s, n.two)

/-- RELEASE: an empty body means every channel in ascending order (R67). -/
def releaseRequest (body : List Byte) (s : State) : Reply :=
  if body ≠ [] ∧ channelListOk body = false then refuse s .badArgument
  else
    let r := s.eachChannel State.releaseChannel (if body = [] then List.range 336 else channelList body)
    (r.1, r.2.result,
      bytes 1 r.2.first ++ bytes 2 r.2.second ++ bytes 1 r.2.refused ++ bytes 1 r.2.firstIndex ++ bytes 1 r.1.cha.claimCount)

/-- The claim of channel `c` whose lease has expired, if there is one (R68). -/
def State.lapsedClaim (s : State) (c : Channel) : Option Claim :=
  match s.cha.records[c].claim with
  | some k => if reached s.now k.lease then some k else none
  | none => none

/-- The expiry of a lease (R68). -/
def State.expireLease (s : State) (c : Channel) (k : Claim) : State :=
  (s.endClaim c k).raise .claimExpired c.val (s.cha.claimCount - 1)

/-! ## LOCKOUT and UNLOCK (R69–R72) -/

/-- The lockout of one entry (R69): the held-off flag is kept for pump channels and clear for jets and fixtures. -/
def lockoutOf (body : List Byte) (c : Channel) : Lockout :=
  ⟨decodeValue c (body.take 5), decide (field body 5 1 ≠ 0) && decide (kindOf c = .pump), field body 6 1⟩

/-- The claim that a LOCKOUT meets is removed, with CLAIM_LOST (R70). -/
def State.loseClaim (s : State) (c : Channel) (reason : Nat) : State :=
  match s.cha.records[c].claim with
  | some _ => (s.withClaimCount (s.cha.claimCount - 1)).raise .claimLost c.val reason
  | none => s

/-- The power-off of a held-off pump's drive (R71). -/
def State.holdOffChannel (s : State) (c : Channel) (l : Lockout) : State :=
  if h : c.val < 16 then (if l.heldOff then s.holdOff ⟨c.val, h⟩ else s) else s

/-- One channel of a LOCKOUT (R70, R71). -/
def State.lockChannel (l : Channel → Lockout) (s : State) (n : Tally) (c : Channel) : State × Tally :=
  ((((s.loseClaim c (l c).reason).withRecord c ⟨none, some (l c), none⟩).holdOffChannel c (l c)),
    if s.cha.records[c].lockout.isSome then n.two else n.one)

/-- LOCKOUT (R69, R70). -/
def lockoutRequest (body : List Byte) (s : State) : Reply :=
  if body.length < 9 ∨ 135 < body.length ∨ body.length % 2 = 0 then refuse s .badArgument
  else
    let r := s.eachChannel (State.lockChannel (lockoutOf body)) (channelList (body.drop 7))
    (r.1, r.2.result,
      bytes 1 r.2.first ++ bytes 1 r.2.second ++ bytes 1 r.2.refused ++ bytes 1 r.2.firstIndex ++ bytes 1 r.2.reason.code)

/-- One channel of an UNLOCK (R72): during an emergency stop no rejoin is created. -/
def State.unlockChannel (s : State) (n : Tally) (c : Channel) : State × Tally :=
  let o := s.cha.records[c]
  match o.lockout with
  | some l =>
    (s.withRecord c { o with
      lockout := none
      rejoin := if s.estop then o.rejoin else some ⟨l.value, s.now, s.tables.limits.rejoinTime c⟩ }, n.one)
  | none => (s, n.two)

/-- UNLOCK (R72). -/
def unlockRequest (body : List Byte) (s : State) : Reply :=
  if channelListOk body = false then refuse s .badArgument
  else
    let r := s.eachChannel State.unlockChannel (channelList body)
    (r.1, r.2.result, bytes 1 r.2.first ++ bytes 1 r.2.second ++ bytes 1 r.2.refused ++ bytes 1 r.2.firstIndex)

/-! ## Emergency stop and RESTART (R73, R75, R77) -/

/-- Every claim and rejoin removed, lockouts kept, claim count 0 (R73, R77). -/
def State.dropClaims (s : State) : State :=
  s.withCha ⟨tabulate fun c => { s.cha.records[c] with claim := none, rejoin := none }, 0⟩

/-- The channels with a claim, in ascending order (R73). -/
def State.claimedChannels (s : State) : List Channel := (List.finRange 336).filter fun c => s.cha.records[c].claim.isSome

/-- CHA's part of an emergency stop entry (R73): CLAIM_LOST with detail 65,535 for each claim removed. -/
def State.chaEstop (s : State) : State :=
  s.claimedChannels.foldl (fun t c => t.raise .claimLost c.val 65535) s.dropClaims

/-- The value last driven on a channel during the stop (R75): C, the valve output table entry, the safety colour. -/
def State.lastDriven (s : State) (c : Channel) : Value :=
  if h : c.val < 16 then .level s.pgv.pumps[c.val].commanded
  else if h2 : c.val < 144 then .level (s.out.valves[c.val - 16]'(by omega))
  else .colour (s.tables.fixtures[c.val - 144]'(by omega)).safety

/-- CHA's part of an emergency stop exit (R75): one rejoin per channel without a lockout; no claim exists (R77). -/
def State.chaExit (s : State) : State :=
  s.withCha ⟨tabulate fun c =>
    if s.cha.records[c].lockout.isSome then { s.cha.records[c] with claim := none, rejoin := none }
    else ⟨none, none, some ⟨s.lastDriven c, s.now, s.tables.limits.rejoinTime c⟩⟩, 0⟩

/-! ## The commands -/

/-- CLAIM, from the CONSOLE port (R63). -/
def execClaim (s : State) : Host.Outcome State Fault Refusal := .next (s.serve .consolePort 0x20 claimRequest)

/-- SET, from the CONSOLE port (R66). -/
def execSet (s : State) : Host.Outcome State Fault Refusal := .next (s.serve .consolePort 0x21 setRequest)

/-- RELEASE, from the CONSOLE port (R67). -/
def execRelease (s : State) : Host.Outcome State Fault Refusal := .next (s.serve .consolePort 0x22 releaseRequest)

/-- LOCKOUT, from the PLANT port (R69). -/
def execLockout (s : State) : Host.Outcome State Fault Refusal := .next (s.serve .plantPort 0x28 lockoutRequest)

/-- UNLOCK, from the PLANT port (R72). -/
def execUnlock (s : State) : Host.Outcome State Fault Refusal := .next (s.serve .plantPort 0x29 unlockRequest)

/-- LEASE_EXPIRY of the claim on channel `c` (R68). -/
def execLeaseExpiry (c : Channel) (s : State) : Host.Outcome State Fault Refusal :=
  .next (match s.lapsedClaim c with
    | some k => s.expireLease c k
    | none => s)

/-- DRIVE_POWER_ON, from the PLANT port (R132). -/
def execDrivePowerOn (s : State) : Host.Outcome State Fault Refusal :=
  .next (s.serveWhen .plantPort 0x32 (fun b => !asksForPower 0 b) drivePowerRequest)

/-- DRIVE_POWER_OFF, from the PLANT port (R133). -/
def execDrivePowerOff (s : State) : Host.Outcome State Fault Refusal :=
  .next (s.serveWhen .plantPort 0x32 (fun b => !asksForPower 1 b) drivePowerRequest)

/-- DRIVE_CLEAR, from the PLANT port (R134). -/
def execDriveClear (s : State) : Host.Outcome State Fault Refusal := .next (s.serve .plantPort 0x33 driveClearRequest)

/-- POWER_DEADLINE_EXPIRY of drive `i` (R137). -/
def execPowerDeadlineExpiry (i : Pump) (s : State) : Host.Outcome State Fault Refusal :=
  .next (if s.powerExpired i then s.powerTimeout i else s)

end Sys2Proof.Machine
end

