-- ==== Sys2Proof/Machine/Outputs.lean ====
section
/-! DEFINITION. The output unit (chapter 8): the valve rule, the hold rule, the fixture renderer, the line frames. -/

namespace Sys2Proof.Machine

/-! ## Jets (R141–R144) -/

/-- The valve rule (R141). -/
def valveRule (mode : JetMode) (input : Nat) : Nat :=
  match mode with
  | .onOff => if 500 ≤ input then 1000 else 0
  | .proportional => input

/-- The pump's drive lets its jets hold (R142): PRESENT, ON, POWERING_DOWN or LOCAL, reporting at least MR. -/
def DriveRecord.holdsJets (d : DriveRecord) (mr : Nat) : Bool :=
  d.present && (d.power = .on || d.power = .poweringDown || d.power = .underLocal) &&
    match d.telemetry with
    | some t => mr ≤ t.speed
    | none => false

/-- The jet holds during an emergency stop (R142). -/
def State.jetHolds (s : State) (j : Jet) : Bool :=
  match s.tables.jets[j].supply with
  | some i => s.dlc[i].holdsJets s.tables.pumps[i].mr
  | none => false

/-- The valve output of a jet for the selected value (R141, R142). -/
def State.valveOutput (s : State) (j : Jet) (selected : Nat) : Nat :=
  if s.estop then (if s.jetHolds j then s.out.valves[j] else 0)
  else valveRule s.tables.jets[j].mode (if s.configOpen then s.tables.jets[j].rest else selected)

/-! ## Fixtures (R147–R150) -/

/-- The input colour of a rendering (R147). -/
def State.renderInput (s : State) (f : Fixture) (selected : Colour) : Colour :=
  if s.estop then s.tables.fixtures[f].safety
  else if s.configOpen then s.tables.fixtures[f].rest
  else selected

/-- The fixture is exposed (R148): a stale level, or a fresh one below the immersion level. -/
def State.exposed (s : State) (f : Fixture) : Bool :=
  match s.tables.fixtures[f].immersion with
  | some depth =>
    if s.plm.levelDeadline.isSome then decide ((s.plm.basinLevel.getD 0) < depth) else true
  | none => false

/-- The capped intensity (R148). -/
def State.cappedIntensity (s : State) (f : Fixture) (i : Nat) : Nat :=
  if s.exposed f then min i s.tables.fixtures[f].cap else i

/-- The white handling (R149). -/
def whiteHandling (e : Emitters) (m : WhiteMode) (c : Colour) : Lamp :=
  match e, m with
  | .rgbw, .auto =>
    let common := min c.r (min c.g c.b)
    ⟨c.r - common, c.g - common, c.b - common, min 255 (c.w + common)⟩
  | .rgbw, .direct => ⟨c.r, c.g, c.b, c.w⟩
  | .rgb, _ => ⟨min 255 (c.r + c.w), min 255 (c.g + c.w), min 255 (c.b + c.w), 0⟩

/-- The scaling by the capped intensity (R150). -/
def Lamp.scaledBy (l : Lamp) (i : Nat) : Lamp := ⟨l.r * i / 255, l.g * i / 255, l.b * i / 255, l.w * i / 255⟩

/-- The rendered colour of a fixture for the selected colour (R147–R150). -/
def State.rendered (s : State) (f : Fixture) (selected : Colour) : Lamp :=
  let c := s.renderInput f selected
  (whiteHandling s.tables.fixtures[f].emitters s.tables.fixtures[f].white c).scaledBy (s.cappedIntensity f c.i)

/-! ## Frames and output tables (R143, R144, R151, R152) -/

/-- The openings among a frame's answers, in jet order (R84). -/
def Answer.toOpening : Answer → Nat
  | .opening n => n
  | .speed _ | .lamp _ => 0

/-- The rendered colours among a frame's answers, in fixture order (R84). -/
def Answer.toLamp : Answer → Lamp
  | .lamp l => l
  | .speed _ | .opening _ => ⟨0, 0, 0, 0⟩

/-- The commanded speed answered for a pump group (R83). -/
def Answer.toSpeed : Answer → Nat
  | .speed n => n
  | .opening _ | .lamp _ => 0

/-- The outputs of a bank whose first jet is `first`, as handed over: during an emergency stop each value above its table entry
is lowered to the entry (R143). -/
def State.limitedOutputs (s : State) (first : Nat) (outputs : List Nat) : List Nat :=
  if s.estop then outputs.mapIdx fun n v => min v ((s.out.valves[first + n]?).getD v) else outputs

/-- The entries of a table from `first` on replaced by a list, in order; the others kept (R143, R151). -/
def overwrite {α : Type} {n : Nat} (t : Vector α n) (first : Nat) (l : List α) : Vector α n :=
  tabulate fun j => if first ≤ j.val ∧ j.val < first + l.length then (l[j.val - first]?).getD t[j] else t[j]

/-- The check of a valve line frame, over the group number and the outputs (R144; notes/assumptions/12). -/
def valveCheck (g : Group) (outputs : List Nat) : BitVec 16 := crc (bytes 1 g.val ++ outputs.flatMap (bytes 2))

/-- The bytes of a rendered colour (R152). -/
def Lamp.toBytes (l : Lamp) : List Byte := bytes 1 l.r ++ bytes 1 l.g ++ bytes 1 l.b ++ bytes 1 l.w

/-- The check of a fixture line frame, over the group number and the outputs (R152; notes/assumptions/12). -/
def fixtureCheck (g : Group) (outputs : List Lamp) : BitVec 16 := crc (bytes 1 g.val ++ outputs.flatMap Lamp.toBytes)

/-- Hand-over of a bank's frame: the limit of an emergency stop, the table, the line (R85, R143). -/
def State.handValve (s : State) (g : Gather) : State :=
  let first := firstChannel g.group - 16
  let outputs := s.limitedOutputs first (g.answers.map Answer.toOpening)
  (s.withOut { s.out with valves := overwrite s.out.valves first outputs }).withLine (lineOf g.group)
    (.sending (.group g.group) (.valve g.group outputs (valveCheck g.group outputs)))

/-- Hand-over of a block's frame: the table, the line (R85, R151). -/
def State.handFixture (s : State) (g : Gather) : State :=
  let outputs := g.answers.map Answer.toLamp
  (s.withOut { s.out with lamps := overwrite s.out.lamps (firstChannel g.group - 144) outputs }).withLine (lineOf g.group)
    (.sending (.group g.group) (.fixture g.group outputs (fixtureCheck g.group outputs)))

/-- Hand-over of a pump's frame, with its check: SPEED with the commanded speed answered to a PRESENT drive, PROBE to an ABSENT one (R83,
R123). The speed is the one answered, also where the drive has left ON or POWERING_DOWN since the answer (R95; notes/assumptions/35). -/
def State.handPump (s : State) (g : Gather) : State :=
  match pumpOf g.group.val with
  | some i =>
    let f : DriveFrame :=
      if s.dlc[i].present then .speed ((g.answers.head?.map Answer.toSpeed).getD 0) else .probe
    s.withLine .drive (.sending (.group g.group) (.drive i f (f.check i)))
  | none => s

/-- A NULL entry's frame handed to the drive line, with its check (R81, R87, R121). -/
def State.sendNull (s : State) (d : Pump) (f : DriveFrame) : State :=
  s.withLine .drive (.sending (.null d) (.drive d f (f.check d)))

/-- Hand-over of a NULL entry's frame, as it was built with the choice of the drive (R87, R88, R124). A POWER frame sets the power
deadline at its sending (R124), also where a request has removed or replaced its command since, so that a drive returned to ON holds a
deadline that a later request for off keeps (R132, R133, R137; notes/assumptions/39). A drive that has gone to FAULT since the choice is never sent one (R134), so its frame is dropped and
the line becomes FREE (notes/assumptions/7). -/
def State.handNull (s : State) (d : Pump) (f : DriveFrame) : State :=
  match f with
  | .power _ =>
    if s.dlc[d].power = .fault then s.withLine .drive .free
    else (s.sendNull d f).withDrive d { s.dlc[d] with deadline := some s.powerDeadline }
  | .speed _ | .clear | .probe => s.sendNull d f

/-- Hand-over of a complete group frame to its line (R85). -/
def State.handGroup (s : State) (g : Gather) : State :=
  if g.group.val < 16 then s.handPump g
  else if g.group.val < 20 then s.handValve g
  else s.handFixture g

end Sys2Proof.Machine
end

