-- ==== Sys2Proof/Machine/Scheduler.lean ====
section
/-! DEFINITION. The frame scheduler (chapter 5): slot expiries and local time, the three asks of a slot, hand-over, frame
ends. -/

namespace Sys2Proof.Machine

/-! ## Local time (R2, R80) -/

/-- An age, or the length of a stop, one millisecond later: it stays at the top (R119, R155, R168). -/
def older (age : Nat) : Nat := min (age + 1) Config.count32Max

/-- One millisecond of local time: the count, and what rises with it: the ages and the length of an emergency stop (R2, R119,
R155, R168). -/
def State.millisecond (s : State) : State :=
  ((s.withClock { s.clock with now := s.clock.now + 1 }).withPlm
      { s.plm with
        windAge := older s.plm.windAge
        levelAge := older s.plm.levelAge
        stop := s.plm.stop.map fun e => { e with length := older e.length } }).withDlc
    (tabulate fun i => { s.dlc[i] with age := older s.dlc[i].age })

/-- The time at which a slot expiry falls: two expiries to each millisecond, so every third one begins the next (R80;
notes/assumptions/4). -/
def State.tick (s : State) : State :=
  if 2 ≤ s.clock.expiries then s.millisecond.withClock ⟨s.millisecond.clock.now, 1, s.clock.released⟩
  else s.withClock { s.clock with expiries := s.clock.expiries + 1 }

/-! ## Serving an entry (R82, R86, R87) -/

/-- The drives in the order of a search that begins after the management pointer and runs once round (R87). -/
def searchOrder (pointer : Pump) : List Pump :=
  (List.range 16).map fun k => ⟨(pointer.val + 1 + k) % 16, Nat.mod_lt _ (by decide)⟩

/-- The drive that the two passes choose (R87). -/
def State.chosenDrive (s : State) : Option Pump :=
  match (searchOrder s.fsc.management).find? s.commandReady with
  | some d => some d
  | none => (searchOrder s.fsc.management).find? fun d => !s.dlc[d].present

/-- A NULL entry on a free drive line: the choice of a drive and the building of its frame, taken as one event, or no exchange (R87,
R124). -/
def State.serveNull (s : State) : State :=
  match s.fsc.drive with
  | .free =>
    match s.chosenDrive with
    | some d =>
      (s.withFsc { s.fsc with management := d, drive := .assemblingNull d (s.managementFrame d) }).withDrive d s.dlc[d].framing
    | none => s
  | .assembling _ | .assemblingNull _ _ | .sending _ _ => s

/-- An entry skipped as an overrun (R86). -/
def State.overrun (s : State) (g : Group) : State :=
  let n := min (s.fsc.overruns[g] + 1) Config.overrunMax
  (s.withFsc { s.fsc with overruns := s.fsc.overruns.set g n }).raise .slotOverrun g.val n

/-- An entry that names a group: gathering begins on a free line, and on a busy one the entry is skipped (R82, R86). -/
def State.serveGroup (s : State) (g : Group) : State :=
  match s.fsc.line (lineOf g) with
  | .free => s.withLine (lineOf g) (.assembling ⟨g, [], .evaluate⟩)
  | .assembling _ | .assemblingNull _ _ | .sending _ _ => s.overrun g

/-- The service of the entry at the pointer (R80). -/
def State.serveEntry (s : State) : State :=
  match s.tables.slots[s.fsc.pointer] with
  | some g => s.serveGroup g
  | none => s.serveNull

/-- The next slot, from 39 to 0 (R80). -/
def nextSlot (n : Slot) : Slot := ⟨(n.val + 1) % 40, Nat.mod_lt _ (by decide)⟩

/-- A slot expiry: its local time, the service of its entry, the advance of the pointer (R80). -/
def State.slotExpiry (s : State) : State :=
  let u := s.tick.serveEntry
  u.withFsc { u.fsc with pointer := nextSlot u.fsc.pointer }

/-! ## The three asks (R82) -/

/-- The gathering that is asking for channel `c`, if one is: the group of `c` holds its line in ASSEMBLING and its next answer
is that of `c`. -/
def State.gathering (s : State) (c : Channel) : Option Gather :=
  match s.fsc.line (lineOf (groupOf c)) with
  | .assembling g =>
    if g.group = groupOf c ∧ firstChannel g.group + g.answers.length = c.val then some g else none
  | .free | .assemblingNull _ _ | .sending _ _ => none

/-- The gathering of `c`'s group replaced. -/
def State.withGather (s : State) (c : Channel) (g : Gather) : State := s.withLine (lineOf (groupOf c)) (.assembling g)

/-- An answer placed in the frame; the next channel is asked for (R82). -/
def Gather.answered (g : Gather) (a : Answer) : Gather := ⟨g.group, g.answers ++ [a], .evaluate⟩

/-- The first ask: CST evaluates the channel and answers with its show value (R48, R82). -/
def State.askShown (s : State) (c : Channel) : State :=
  match s.gathering c with
  | some g =>
    match g.ask with
    | .evaluate => (s.evaluate c).withGather c { g with ask := .select (s.evaluate c).cst.shown[c] }
    | .select _ | .answer _ => s
  | none => s

/-- The second ask: CHA selects the output value for the show value handed over (R60, R82). -/
def State.askSelected (s : State) (c : Channel) : State :=
  match s.gathering c with
  | some g =>
    match g.ask with
    | .select shown =>
      (s.dropCompleteRejoin c).withGather c { g with ask := .answer (s.cha.records[c].output shown s.now) }
    | .evaluate | .answer _ => s
  | none => s

/-- The value handed on for channel `c` and the gathering it belongs to, if the third ask is outstanding (R82). -/
def State.handedOn (s : State) (c : Channel) : Option (Gather × Value) :=
  match s.gathering c with
  | some g =>
    match g.ask with
    | .answer v => some (g, v)
    | .evaluate | .select _ => none
  | none => none

/-- The start of the rejoin of the channel numbered `n`, or `v` where it has none (R75). -/
def Cha.rejoinStart (x : Cha) (n : Nat) (v : Value) : Value :=
  match channelOf n with
  | some c => (x.records[c].rejoin.map Rejoin.fromValue).getD v
  | none => v

/-- A gathering at the exit of an emergency stop: a value handed on before it becomes the start of the rejoin that the exit gave the
channel (R145, R153). -/
def Gather.rejoining (g : Gather) (x : Cha) : Gather :=
  match g.ask with
  | .answer v => { g with ask := .answer (x.rejoinStart (firstChannel g.group + g.answers.length) v) }
  | .evaluate | .select _ => g

/-- A valve or fixture line at the exit of an emergency stop: only a value handed on changes (R91, R145, R153). -/
def LineState.rejoining (l : LineState) (x : Cha) : LineState :=
  match l with
  | .assembling g => .assembling (g.rejoining x)
  | .free | .assemblingNull _ _ | .sending _ _ => l

/-- At the exit of an emergency stop the third asks outstanding for jets and fixtures carry the starts of the rejoins, so that an
answer taken after the exit is given from there (R145, R153; notes/assumptions/34). A pump is computed for the value that CHA
selected, so the drive line stands (R104, R91). -/
def State.handOnRejoins (s : State) : State :=
  s.withFsc { s.fsc with
    valve := s.fsc.valve.rejoining s.cha
    fixtureA := s.fsc.fixtureA.rejoining s.cha
    fixtureB := s.fsc.fixtureB.rejoining s.cha }

/-- The frame is complete: every channel of the group has its answer (R85). -/
def Gather.complete (g : Gather) : Bool := g.answers.length = groupSize g.group

/-! ## The commands -/

/-- SLOT_EXPIRY (R80): from the release of cold reset onward. -/
def execSlotExpiry (s : State) : Host.Outcome State Fault Refusal :=
  .next (if s.clock.released then s.slotExpiry else s)

/-- CHANNEL_EVALUATION of channel `c`, asked for by the scheduler (R48). -/
def execChannelEvaluation (c : Channel) (s : State) : Host.Outcome State Fault Refusal := .next (s.askShown c)

/-- OUTPUT_SELECTION of channel `c`, asked for by the scheduler (R60). -/
def execOutputSelection (c : Channel) (s : State) : Host.Outcome State Fault Refusal := .next (s.askSelected c)

/-- COMMAND_COMPUTATION of pump `i` for the value handed on, which is the one that CHA selected, also where an emergency stop has been
entered or left between the two (R104). -/
def execCommandComputation (i : Pump) (s : State) : Host.Outcome State Fault Refusal :=
  .next (match s.handedOn (pumpChannel i) with
    | some (g, v) =>
      let u := s.computeCommand i v.toLevel
      u.withGather (pumpChannel i) (g.answered (.speed u.pgv.pumps[i].commanded))
    | none => s)

/-- VALVE_ANSWER for jet `j` (R141). The value is the one handed on by the selection; where an emergency stop has been left between
the two, the exit has made it the start of the jet's rejoin (R82, R145). -/
def execValveAnswer (j : Jet) (s : State) : Host.Outcome State Fault Refusal :=
  .next (match s.handedOn (jetChannel j) with
    | some (g, v) => s.withGather (jetChannel j) (g.answered (.opening (s.valveOutput j v.toLevel)))
    | none => s)

/-- FIXTURE_RENDERING of fixture `f` (R147). The colour is the one handed on by the selection; where an emergency stop has been left
between the two, the exit has made it the start of the fixture's rejoin (R82, R153). -/
def execFixtureRendering (f : Fixture) (s : State) : Host.Outcome State Fault Refusal :=
  .next (match s.handedOn (fixtureChannel f) with
    | some (g, v) => s.withGather (fixtureChannel f) (g.answered (.lamp (s.rendered f v.toColour)))
    | none => s)

/-- FRAME_HANDOVER on line `l`: the complete frame of a group, or the frame of a NULL entry, is handed to its line, at its slot
expiry or later (R85, R87, R88). -/
def execFrameHandover (l : Line) (s : State) : Host.Outcome State Fault Refusal :=
  .next (match s.fsc.line l with
    | .assembling g => if g.complete && lineOf g.group = l then s.handGroup g else s
    | .assemblingNull d f => if l = .drive then s.handNull d f else s
    | .free | .sending _ _ => s)

/-- FRAME_END of a valve or fixture line: the line becomes FREE (R81). -/
def execFrameEnd (l : Line) (s : State) : Host.Outcome State Fault Refusal :=
  .next (if l = .drive then s
    else
      match s.fsc.line l with
      | .sending _ _ => s.withLine l .free
      | .free | .assembling _ | .assemblingNull _ _ => s)

/-- EXCHANGE_COMPLETION: the reply window of the exchange on the drive line closes, with what came in it (R122). -/
def execExchangeCompletion (window : List ReplyFrame) (s : State) : Host.Outcome State Fault Refusal :=
  .next (match s.fsc.drive with
    | .sending _ (.drive i f _) => (s.completeExchange i f (goodReply i window)).withLine .drive .free
    | .sending _ (.valve _ _ _) | .sending _ (.fixture _ _ _) | .free | .assembling _ | .assemblingNull _ _ => s)

end Sys2Proof.Machine
end

