-- ==== Sys2Proof/Machine/Plant.lean ====
section
/-! DEFINITION. The plant monitor (chapter 9): reports, staleness, the emergency stop. -/

namespace Sys2Proof.Machine

/-! ## Reports (R156, R158, R161) -/

/-- WIND (R156). -/
def windRequest (body : List Byte) (s : State) : Reply :=
  if body.length ≠ 2 then refuse s .badArgument
  else
    let w := min (field body 0 2) 600
    let u := s.withPlm { s.plm with
      windSpeed := some w, windAge := 0, windDeadline := some (after s.now s.tables.limits.windStale) }
    (u.updateAllowed, .ok, bytes 2 w)

/-- LEVEL (R158). -/
def levelRequest (body : List Byte) (s : State) : Reply :=
  if body.length ≠ 2 then refuse s .badArgument
  else
    let v := min (field body 0 2) 5000
    let u := (s.withPlm { s.plm with
      basinLevel := some v, levelAge := 0, levelDeadline := some (after s.now s.tables.limits.levelStale) }).lowWaterTest v
    (u, .ok, bytes 2 v ++ flagByte u.plm.lowWater)

/-- BUDGET (R161, R111). -/
def budgetRequest (body : List Byte) (s : State) : Reply :=
  if body.length ≠ 4 then refuse s .badArgument
  else
    let b := min (field body 0 4) Config.budgetMax
    ((s.withPgv { s.pgv with budget := b }).budgetTest, .ok, bytes 4 b)

/-! ## Staleness (R157, R159) -/

/-- A deadline has been reached. -/
def deadlineReached (deadline : Option Time) (now : Time) : Bool :=
  match deadline with
  | some t => reached now t
  | none => false

/-- The wind goes STALE (R157, R103). -/
def State.windGoesStale (s : State) : State :=
  ((s.withPlm { s.plm with windDeadline := none }).raise .windStale 0 (s.plm.windSpeed.getD 65535)).updateAllowed

/-- The level goes STALE (R159). -/
def State.levelGoesStale (s : State) : State :=
  (s.withPlm { s.plm with levelDeadline := none }).raise .levelStale 0 (s.plm.basinLevel.getD 65535)

/-! ## Emergency stop (R163–R168) -/

/-- Entry into the emergency stop, taken whole (R167). -/
def State.enterStop (s : State) (cause : EntryCause) : State :=
  let u := s.withPlm { s.plm with stop := some ⟨cause, s.now, 0⟩ }
  let v := u.raise .estop 0 (match cause with | .line => 1 | .latch => 2)
  ((v.seqEstop.installRest).flushAudio).chaEstop

/-- Exit from the emergency stop, taken whole, with the length of the stop as the detail of ESTOP_CLEAR (R168); a jet's or fixture's
value handed on before it becomes the start of its channel's rejoin (R145, R153; notes/assumptions/34). -/
def State.leaveStop (s : State) (e : StopEntry) : State :=
  let u := s.withPlm { s.plm with stop := none }
  (u.raise .estopClear 0 e.length).chaExit.handOnRejoins

/-- The judgement of R163, after the line state or the latch has been set; `cause` names the one that changed. -/
def State.judgeStop (s : State) (cause : EntryCause) : State :=
  match s.plm.stop with
  | none => if s.plm.lineActive || s.plm.latch then s.enterStop cause else s
  | some e => if s.plm.lineActive || s.plm.latch then s else s.leaveStop e

/-- The response body of ESTOP and ESTOP_RESET (R164, R165). -/
def State.stopBody (s : State) : List Byte :=
  bytes 1 (lineStateCode s.plm.lineActive) ++ flagByte s.plm.latch ++ bytes 1 (stopStateCode s.estop)

/-- ESTOP (R164). -/
def estopRequest (s : State) : Reply :=
  let u := (s.withPlm { s.plm with latch := true }).judgeStop .latch
  (u, .ok, u.stopBody)

/-- ESTOP_RESET (R165): answered by the line state after the clearing. -/
def estopResetRequest (s : State) : Reply :=
  let u := (s.withPlm { s.plm with latch := false }).judgeStop .latch
  (u, if u.plm.lineActive then .estopActive else .ok, u.stopBody)

/-! ## The ESTOP_N input (R162) -/

/-- The raw level judged against the line state: a difference sets the debounce deadline, agreement removes it (R162). -/
def State.judgeRaw (s : State) : State :=
  s.withPlm { s.plm with
    debounce := if s.plm.rawLow = s.plm.lineActive then none else some (after s.now Config.debounceMs) }

/-- A change of the raw level (R162): judged from the release of RESET_N on. R162 removes the deadline for a change back "before the
deadline". DESIGN CHOICE: a change back taken once local time has reached the deadline, but before DEBOUNCE_DEADLINE_EXPIRY, removes
it too, and the line state stays as it was (notes/assumptions/40). -/
def State.rawChange (s : State) (low : Bool) : State :=
  if low = s.plm.rawLow then s
  else
    let u := s.withPlm { s.plm with rawLow := low }
    if s.clock.released then u.judgeRaw else u

/-- The debounce deadline has been reached with the raw level still differing (R162). -/
def State.debounced (s : State) : Bool :=
  deadlineReached s.plm.debounce s.now && decide (s.plm.rawLow ≠ s.plm.lineActive)

/-- The raw level is taken as the line state, and R163 judges it (R162). -/
def State.takeLine (s : State) : State :=
  (s.withPlm { s.plm with lineActive := s.plm.rawLow, debounce := none }).judgeStop .line

/-! ## The commands -/

/-- WIND, from the PLANT port (R156). -/
def execWind (s : State) : Host.Outcome State Fault Refusal := .next (s.serve .plantPort 0x34 windRequest)

/-- LEVEL, from the PLANT port (R158). -/
def execLevel (s : State) : Host.Outcome State Fault Refusal := .next (s.serve .plantPort 0x35 levelRequest)

/-- BUDGET, from the PLANT port (R161). -/
def execBudget (s : State) : Host.Outcome State Fault Refusal := .next (s.serve .plantPort 0x36 budgetRequest)

/-- ESTOP, from the PLANT port (R164). -/
def execEstop (s : State) : Host.Outcome State Fault Refusal := .next (s.serve .plantPort 0x30 (bodiless estopRequest))

/-- ESTOP_RESET, from the PLANT port (R165). A body that is not empty is answered BAD_ARGUMENT with an empty response body
(notes/assumptions/9). -/
def execEstopReset (s : State) : Host.Outcome State Fault Refusal :=
  .next (s.serve .plantPort 0x31 (bodiless estopResetRequest))

/-- WIND_DEADLINE_EXPIRY (R157). -/
def execWindDeadlineExpiry (s : State) : Host.Outcome State Fault Refusal :=
  .next (if deadlineReached s.plm.windDeadline s.now then s.windGoesStale else s)

/-- LEVEL_DEADLINE_EXPIRY (R159). -/
def execLevelDeadlineExpiry (s : State) : Host.Outcome State Fault Refusal :=
  .next (if deadlineReached s.plm.levelDeadline s.now then s.levelGoesStale else s)

/-- ESTOP_N_CHANGE to the raw level given (R162). -/
def execEstopNChange (low : Bool) (s : State) : Host.Outcome State Fault Refusal := .next (s.rawChange low)

/-- DEBOUNCE_DEADLINE_EXPIRY (R162, R163). -/
def execDebounceDeadlineExpiry (s : State) : Host.Outcome State Fault Refusal :=
  .next (if s.debounced then s.takeLine else s)

end Sys2Proof.Machine
end

