-- ==== Sys2Proof/Machine/Configuration.lean ====
section
/-! DEFINITION. The configuration store (chapter 11): opening, writing, committing; RESTART; cold reset. -/

namespace Sys2Proof.Machine

/-! ## CONFIG_OPEN (R188) -/

/-- The lowest pump with C above 0 or a LOCAL drive (R188). -/
def State.blockingPump (s : State) : Option Pump :=
  (List.finRange 16).find? fun i => decide (0 < s.pgv.pumps[i].commanded) || decide (s.dlc[i].power = .underLocal)

/-- CONFIG_OPEN (R188). -/
def configOpenRequest (body : List Byte) (s : State) : Reply :=
  if body ≠ [] then (s, .badArgument, bytes 1 255)
  else if s.cfg.state = .opened then (s, .ok, [])
  else if s.seq.showState ≠ .idle ∧ s.seq.showState ≠ .unconfigured then (s, .busyState, bytes 1 255)
  else
    match s.blockingPump with
    | some i => (s, .busyState, bytes 1 i.val)
    | none => ((s.withCfg ⟨.opened, s.tables⟩).seqOpen, .ok, [])

/-! ## CONFIG_WRITE (R189) -/

/-- The four-byte field number `n` of an item, counted from byte 2 of the body. -/
def itemField (body : List Byte) (n : Nat) : Nat := field body (2 + 4 * n) 4

/-- A number within its range (R189). -/
def inRange (lo hi n : Nat) : Bool := lo ≤ n && n ≤ hi

/-- The coding of the wind classes (R93, R189). -/
def windClassOf (n : Nat) : Option WindClass :=
  match n with
  | 0 => some .none
  | 1 => some .low
  | 2 => some .mid
  | 3 => some .tall
  | _ => none

/-- A pump item (R189). -/
def pumpItem (body : List Byte) : Option PumpEntry :=
  let f := itemField body
  match windClassOf (f 6) with
  | some k =>
    if body.length = 38 && inRange 0 250000 (f 0) && inRange 0 1000 (f 1) && inRange 50 500 (f 2) && inRange 10 1000 (f 3) &&
        inRange 10 1000 (f 4) && inRange 10 1000 (f 5) && inRange 0 32000 (f 7) && inRange 0 1000 (f 8) then
      some ⟨f 0, f 1, f 2, f 3, f 4, f 5, k, f 7, f 8⟩
    else none
  | none => none

/-- The coding of the jet modes (R140, R189). -/
def jetModeOf (n : Nat) : Option JetMode :=
  match n with
  | 0 => some .onOff
  | 1 => some .proportional
  | _ => none

/-- The coding of a supply: a pump, or FFFFFFFFh for NONE (R189). -/
def supplyOf (n : Nat) : Option (Option Pump) :=
  if n = Config.count32Max then some none else (pumpOf n).map some

/-- A jet item (R189). -/
def jetItem (body : List Byte) : Option JetEntry :=
  match jetModeOf (itemField body 0), supplyOf (itemField body 1) with
  | some m, some p =>
    if body.length = 14 && inRange 0 1000 (itemField body 2) then some ⟨m, p, itemField body 2⟩ else none
  | _, _ => none

/-- The coding of the emitters (R146, R189). -/
def emittersOf (n : Nat) : Option Emitters :=
  match n with
  | 0 => some .rgb
  | 1 => some .rgbw
  | _ => none

/-- The coding of the white modes (R146, R189). -/
def whiteModeOf (n : Nat) : Option WhiteMode :=
  match n with
  | 0 => some .direct
  | 1 => some .auto
  | _ => none

/-- The coding of an immersion level: a level, or FFFFFFFFh for NONE (R146, R189). -/
def immersionOf (n : Nat) : Option (Option Nat) :=
  if n = Config.count32Max then some none else if n ≤ 5000 then some (some n) else none

/-- A colour field of five bytes from byte `at_` on (R189). -/
def colourField (body : List Byte) (at_ : Nat) : Colour :=
  ⟨field body at_ 1, field body (at_ + 1) 1, field body (at_ + 2) 1, field body (at_ + 3) 1, field body (at_ + 4) 1⟩

/-- A fixture item (R189). -/
def fixtureItem (body : List Byte) : Option FixtureEntry :=
  match emittersOf (itemField body 0), whiteModeOf (itemField body 1), immersionOf (itemField body 2) with
  | some e, some m, some d =>
    if body.length = 28 && inRange 0 255 (itemField body 3) then
      some ⟨e, m, d, itemField body 3, colourField body 18, colourField body 23⟩
    else none
  | _, _, _ => none

/-- A wind curve item (R189). -/
def curveItem (body : List Byte) : Option WindCurve :=
  let f := itemField body
  if body.length = 14 && inRange 0 600 (f 0) && inRange 0 600 (f 1) && inRange 0 1000 (f 2) then some ⟨f 0, f 1, f 2⟩
  else none

/-- An entry of the slot table item: a group 0–27, or FFh for NULL (R189). -/
def slotOf (n : Nat) : Option (Option Group) :=
  if h : n < 28 then some (some ⟨n, h⟩) else if n = 255 then some none else none

/-- The slot table item (R189). -/
def slotsItem (body : List Byte) : Option (Vector (Option Group) 40) :=
  if body.length = 42 && (body.drop 2).all fun b => (slotOf b.toNat).isSome then
    some (tabulate fun n => (slotOf (field body (2 + n.val) 1)).getD none)
  else none

/-- The limits item (R189). -/
def limitsItem (body : List Byte) : Option Limits :=
  let f := itemField body
  if body.length = 66 && inRange 0 65535 (f 0) && inRange 0 65535 (f 1) && inRange 0 12960 (f 2) && inRange 0 96000 (f 3) &&
      inRange 1000 60000 (f 4) && inRange 0 60000 (f 5) && inRange 500 10000 (f 6) && inRange 0 10000 (f 7) &&
      inRange 0 10000 (f 8) && inRange 0 10000 (f 9) && inRange 1 200 (f 10) && inRange 1000 60000 (f 11) &&
      inRange 1000 60000 (f 12) && inRange 0 4950 (f 13) && inRange 1000 30000 (f 14) && inRange 0 2048 (f 15) then
    some ⟨f 0, f 1, f 2, f 3, f 4, f 5, f 6, f 7, f 8, f 9, f 10, f 11, f 12, f 13, f 14, f 15⟩
  else none

/-- The held tables with one item replaced by what the body carries; none when the body is refused (R189). -/
def Tables.write (t : Tables) (body : List Byte) : Option Tables :=
  let index := field body 1 1
  match field body 0 1 with
  | 1 => if h : index < 16 then (pumpItem body).map fun e => { t with pumps := t.pumps.set index e } else none
  | 2 => if h : index < 128 then (jetItem body).map fun e => { t with jets := t.jets.set index e } else none
  | 3 => if h : index < 192 then (fixtureItem body).map fun e => { t with fixtures := t.fixtures.set index e } else none
  | 4 =>
    match index with
    | 1 => (curveItem body).map fun k => { t with low := k }
    | 2 => (curveItem body).map fun k => { t with mid := k }
    | 3 => (curveItem body).map fun k => { t with tall := k }
    | _ => none
  | 5 => if index = 0 then (slotsItem body).map fun v => { t with slots := v } else none
  | 6 => if index = 0 then (limitsItem body).map fun l => { t with limits := l } else none
  | _ => none

/-- CONFIG_WRITE (R189). -/
def configWriteRequest (body : List Byte) (s : State) : Reply :=
  if s.cfg.state ≠ .opened then refuse s .busyState
  else
    match s.cfg.held.write body with
    | some t => (s.withCfg { s.cfg with held := t }, .ok, body.take 2)
    | none => refuse s .badArgument

/-! ## CONFIG_COMMIT (R79, R190, R191) -/

/-- Check 1: the lowest group missing from the slot table (R190). -/
def Tables.missingGroup (t : Tables) : Option Group :=
  (List.finRange 28).find? fun g => !(t.slots.toList.contains (some g))

/-- The cyclic distance of two entries (R79). -/
def cyclicDistance (i j : Nat) : Nat := min (max i j - min i j) (40 - (max i j - min i j))

/-- Two entries name groups on the same fixture line (R79). -/
def sameFixtureLine (a b : Option Group) : Bool :=
  match a, b with
  | some g, some h => lineOf g = lineOf h && (lineOf g = .fixtureA || lineOf g = .fixtureB)
  | _, _ => false

/-- A pair of entries that fails the fixture spacing (R79). -/
def Tables.pairFails (t : Tables) (i j : Slot) : Bool :=
  decide (i.val < j.val) && sameFixtureLine t.slots[i] t.slots[j] && decide (cyclicDistance i.val j.val < 3)

/-- Check 2: the lower slot of the first failing pair (R190). -/
def Tables.crowdedSlot (t : Tables) : Option Slot :=
  (List.finRange 40).find? fun i => (List.finRange 40).any fun j => t.pairFails i j

/-- Check 3: a wind class whose curve does not have w_s below w_f (R190). Where several fail, the lowest is reported: R190 says "the
class" (notes/assumptions/37). -/
def Tables.badCurve (t : Tables) : Option Nat :=
  if t.low.wf ≤ t.low.ws then some 1
  else if t.mid.wf ≤ t.mid.ws then some 2
  else if t.tall.wf ≤ t.tall.ws then some 3
  else none

/-- Check 4: the lowest pump with MR above PS (R190). -/
def Tables.badPump (t : Tables) : Option Pump := (List.finRange 16).find? fun i => decide (t.pumps[i].ps < t.pumps[i].mr)

/-- A failed check of a commit: check number, code of the item concerned, index (R190). -/
structure FailedCheck where
  check : Nat
  item : Nat
  index : Nat
deriving DecidableEq, Repr

/-- The first of the six checks that fails (R190). -/
def Tables.failedCheck (t : Tables) : Option FailedCheck :=
  match t.missingGroup with
  | some g => some ⟨1, 5, g.val⟩
  | none =>
    match t.crowdedSlot with
    | some n => some ⟨2, 5, n.val⟩
    | none =>
      match t.badCurve with
      | some k => some ⟨3, 4, k⟩
      | none =>
        match t.badPump with
        | some i => some ⟨4, 1, i.val⟩
        | none =>
          if 15360 < t.limits.startLevel then some ⟨5, 6, 0⟩
          else if t.limits.resumeLevel < 1 ∨ 15360 < t.limits.resumeLevel then some ⟨6, 6, 0⟩
          else none

/-- The installation of a commit (R191): tables and slot pointer (R90), shares, allowed speeds and budget test (R116), cue
lists, show values and pool test (R56); then SEQ (R18). -/
def State.install (s : State) : State :=
  let a := (s.withCfg { s.cfg with state := .valid }).withTables s.cfg.held
  let b := (a.withFsc { a.fsc with pointer := 0 }).recomputeShares.updateAllowed.budgetTest
  b.clearCues.restShown.poolLowTest.seqCommit

/-- CONFIG_COMMIT (R190). -/
def configCommitRequest (s : State) : Reply :=
  if s.cfg.state ≠ .opened then refuse s .busyState
  else
    match s.cfg.held.failedCheck with
    | some k => (s, .badConfig, bytes 1 k.check ++ bytes 1 k.item ++ bytes 1 k.index)
    | none => (s.install, .ok, [])

/-! ## RESTART and cold reset (R186, R193, R194) -/

/-- A port's notice list and notices-dropped flag cleared (R186, R193). -/
def MasterPort.clearNotices (m : MasterPort) : MasterPort := { m with notices := [], dropped := false }.settle

/-- RESTART, taken whole (R193). -/
def State.restarted (s : State) : State :=
  let a := s.withSeq (Seq.restarted (s.cfg.state = .valid))
  let b := a.withPlu { a.plu with position := 0, queue := [], starvation := 0, volume := 1000, lowMarkArmed := true }
  let c := b.clearCues.restShown
  let d := (c.withCst { c.cst with skipped := 0, poolLowArmed := true }).dropClaims
  let e : State := { d with
    mpShow := d.mpShow.clearNotices, mpPlant := d.mpPlant.clearNotices, mpConsole := d.mpConsole.clearNotices }
  e.raise .showState 0 0

/-- RESTART (R193). -/
def restartRequest (s : State) : Reply := (s.restarted, .ok, [])

/-- Cold reset (R194): everything but the level of the ESTOP_N pin, which the part does not drive, and the queue of waiting
commands. -/
def State.coldReset (s : State) : State := { State.reset with plm := .cold s.plm.rawLow, pending := s.pending }

/-- The release of RESET_N (R80, R162): slot expiries, local time and transactions begin, and the raw ESTOP_N level is judged. Every
block still holds its cold reset values (R194), since nothing but the level of the pin changes while RESET_N is held
(`State.HeldLaw`; notes/assumptions/32). -/
def State.release (s : State) : State :=
  if s.clock.released then s else (s.withClock { s.clock with released := true }).judgeRaw

/-! ## The commands -/

/-- CONFIG_OPEN, from the PLANT port (R188). -/
def execConfigOpen (s : State) : Host.Outcome State Fault Refusal := .next (s.serve .plantPort 0x40 configOpenRequest)

/-- CONFIG_WRITE, from the PLANT port (R189). -/
def execConfigWrite (s : State) : Host.Outcome State Fault Refusal := .next (s.serve .plantPort 0x41 configWriteRequest)

/-- CONFIG_COMMIT, from the PLANT port (R190). -/
def execConfigCommit (s : State) : Host.Outcome State Fault Refusal :=
  .next (s.serve .plantPort 0x42 (bodiless configCommitRequest))

/-- RESTART, from the PLANT port (R193). -/
def execRestart (s : State) : Host.Outcome State Fault Refusal := .next (s.serve .plantPort 0x43 (bodiless restartRequest))

/-- COLD_RESET: assertion of RESET_N, or power-up (R194). -/
def execColdReset (s : State) : Host.Outcome State Fault Refusal := .next s.coldReset

/-- RESET_N_RELEASE (R162). -/
def execResetNRelease (s : State) : Host.Outcome State Fault Refusal := .next s.release

end Sys2Proof.Machine
end

