-- ==== Sys2Proof/Machine/Ports.lean ====
section
/-! DEFINITION. The master ports (chapter 10): transactions, admission, dispatch, and the reads. -/

namespace Sys2Proof.Machine

/-! ## The beginning of a transaction (R172, R184) -/

/-- The port flags of status byte 0 (R184). -/
def State.portFlags (s : State) (p : Port) : Nat :=
  (if (s.port p).dropped then 1 else 0) + (if s.estop then 2 else 0) + (if s.cfg.state = .valid then 4 else 0)

/-- The six status bytes that open every transaction (R172, R184). -/
def State.statusHeader (s : State) (p : Port) : List Byte :=
  bytes 1 (s.portFlags p) ++ bytes 1 (s.port p).outgoing.length ++ bytes 1 (s.port p).notices.length ++
    bytes 1 (s.port p).admission.code ++ [(s.port p).admissionTag] ++ bytes 1 s.seq.showState.code

/-- The bytes of a response that its check covers: kind, tag, result, body length, body (R184). -/
def Response.covered (r : Response) : List Byte :=
  [r.kind, r.tag] ++ bytes 1 r.result.code ++ bytes 2 r.body.length ++ r.body

/-- A response as it is shifted out, its check included (R184). -/
def Response.toBytes (r : Response) : List Byte := r.covered ++ bytes 2 (crc r.covered).toNat

/-- What the port fixes at the beginning of a transaction (R172). -/
def State.fixed (s : State) (p : Port) : Transaction :=
  ⟨s.statusHeader p, (s.port p).outgoing.head?.map Response.toBytes⟩

/-! ## The end of a transaction (R172–R174) -/

/-- The judgement of the bytes clocked in (R173). -/
inductive Judged where
  | readOnly
  | aborted
  | badFrame
  | wellFormed (q : Request)
deriving DecidableEq, Repr

/-- FRAME_JUDGEMENT (R173). -/
def judgeBytes (bs : List Byte) : Judged :=
  if bs.length = 0 ∨ bs.head? = some 0 then .readOnly
  else if bs.length < 4 then .aborted
  else if Config.bodyMax < field bs 2 2 then .badFrame
  else if bs.length < 4 + field bs 2 2 + 2 then .aborted
  else if (crc (bs.take (4 + field bs 2 2))).toNat ≠ field bs (4 + field bs 2 2) 2 then .badFrame
  else .wellFormed ⟨bs.headD 0, (bs.drop 1).headD 0, (bs.drop 4).take (field bs 2 2)⟩

/-- The tag an admission record takes: byte 1 when at least two bytes were clocked in, 0 otherwise (R173). -/
def tagOf (bs : List Byte) : Byte := (bs.drop 1).headD 0

/-- Requests admitted and not yet answered, and responses not yet collected (R174). -/
def MasterPort.outstanding (m : MasterPort) : Nat :=
  m.outgoing.length + m.urgent.length + m.bulk.length + (if m.executing.isSome then 1 else 0)

/-- The queue of a class has room (R174). -/
def MasterPort.hasRoom (m : MasterPort) (c : RequestClass) : Bool :=
  match c with
  | .urgent => m.urgent.length < Config.urgentPlaces
  | .bulk => m.bulk.length < Config.bulkPlaces

/-- The request joins the tail of its class's queue (R174). -/
def MasterPort.join (m : MasterPort) (q : Request) : MasterPort :=
  match classOf q.kind with
  | .urgent => { m with urgent := m.urgent ++ [q] }
  | .bulk => { m with bulk := m.bulk ++ [q] }

/-- The admission record set to an outcome (R173, R174). -/
def MasterPort.record (m : MasterPort) (a : Admission) (tag : Byte) : MasterPort :=
  { m with admission := a, admissionTag := tag }

/-- A frame that is not executed adds one to the error count (R173). -/
def MasterPort.countError (m : MasterPort) : MasterPort := { m with errorCount := min (m.errorCount + 1) Config.errorMax }

/-- ADMISSION (R174). -/
def MasterPort.consider (m : MasterPort) (q : Request) : MasterPort :=
  if m.hasRoom (classOf q.kind) = true ∧ m.outstanding < Config.outgoingPlaces then (m.join q).record .admitted q.tag
  else m.record .refusedFull q.tag

/-- The second step at the end of a transaction: the bytes clocked in are judged (R173). -/
def MasterPort.takeBytes (m : MasterPort) (bs : List Byte) : MasterPort :=
  match judgeBytes bs with
  | .readOnly => m
  | .aborted => m.countError.record .aborted (tagOf bs)
  | .badFrame => m.countError.record .badFrame (tagOf bs)
  | .wellFormed q => m.consider q

/-- The bytes that a transaction fixed, in the order in which they are shifted out (R172). -/
def Transaction.fixedBytes (t : Transaction) : List Byte := t.header ++ t.response.getD []

/-- The first `n` bytes that a transaction shifts out: what was fixed, then FFh for as long as the master goes on clocking
(R172). -/
def Transaction.shifted (t : Transaction) (n : Nat) : List Byte :=
  t.fixedBytes.take n ++ List.replicate (n - t.fixedBytes.length) 0xFF

/-- The first step: a response whose every byte has been clocked out is removed (R172). As many bytes are clocked out as in
(notes/assumptions/10). -/
def MasterPort.collect (m : MasterPort) (t : Transaction) (clocked : Nat) : MasterPort :=
  match t.response with
  | some r => if t.header.length + r.length ≤ clocked then { m with outgoing := m.outgoing.drop 1 }.settle else m
  | none => m

/-- The end of a transaction (R172): as many bytes have been shifted out as in (notes/assumptions/10). -/
def MasterPort.finish (m : MasterPort) (bs : List Byte) : MasterPort :=
  match m.transaction with
  | some t => { (m.collect t bs.length).takeBytes bs with transaction := none, shiftedOut := t.shifted bs.length }
  | none => m

/-! ## Dispatch (R175) -/

/-- The request a port takes next, and the port without it: the oldest urgent one, or else the oldest bulk one (R175). -/
def MasterPort.next (m : MasterPort) : Option (Request × MasterPort) :=
  match m.urgent with
  | q :: qs => some (q, { m with urgent := qs })
  | [] =>
    match m.bulk with
    | q :: qs => some (q, { m with bulk := qs })
    | [] => none

/-- REQUEST_DISPATCH on a port with no request in execution (R175). -/
def State.dispatch (s : State) (p : Port) : State :=
  match (s.port p).executing, (s.port p).next with
  | none, some (q, m) =>
    match catalogue q.kind with
    | none => s.withPort p (m.respond ⟨q.kind, q.tag, .badArgument, []⟩)
    | some k =>
      if k.permits p then s.withPort p { m with executing := some ⟨q, s.now⟩ }
      else s.withPort p (m.respond ⟨q.kind, q.tag, .wrongPort, []⟩)
  | _, _ => s

/-! ## STATUS (R178, R185) -/

/-- The sequencer record and the configuration state, bytes 2–21 of STATUS (R185). -/
def State.statusShow (s : State) : List Byte :=
  bytes 1 s.cfg.state.code ++ bytes 1 s.seq.showState.code ++ optBytes 1 (s.seq.holdCause.map HoldCause.code) ++
    bytes 1 s.seq.idleCause.code ++ bytes 1 s.seq.resetOrigin.code ++ flagByte s.seq.startDeadline.isSome ++
    optTime s.seq.startDeadline ++ optBytes 4 s.seq.endPosition ++ optBytes 4 s.seq.fadeEnd ++
    optBytes 1 (s.seq.fadeCause.map FadeCause.code) ++ flagByte s.seq.silent

/-- PLU's, CST's, CHA's and PGV's fields, bytes 22–56 of STATUS (R185). -/
def State.statusWorks (s : State) : List Byte :=
  bytes 4 s.plu.position ++ positionField s.plu.expectedNext ++ positionField s.plu.lead ++ bytes 4 s.plu.starvation ++
    bytes 2 s.plu.volume ++ flagByte s.plu.lowMarkArmed ++ bytes 2 s.cst.free ++ bytes 4 s.cst.skipped ++
    bytes 1 s.cha.claimCount ++ bytes 4 s.pgv.total ++ bytes 4 s.pgv.budget ++ flagByte s.pgv.excess

/-- The plant record, bytes 57–79 of STATUS (R185). -/
def State.statusPlant (s : State) : List Byte :=
  optBytes 2 s.plm.windSpeed ++ bytes 1 (freshnessCode s.plm.windDeadline) ++ bytes 4 s.plm.windAge ++
    optBytes 2 s.plm.basinLevel ++ bytes 1 (freshnessCode s.plm.levelDeadline) ++ bytes 4 s.plm.levelAge ++
    flagByte s.plm.lowWater ++ bytes 1 (lineStateCode s.plm.lineActive) ++ flagByte s.plm.latch ++
    bytes 1 (stopStateCode s.estop) ++ optBytes 1 (s.plm.stop.map fun e => e.cause.code) ++
    optTime (s.plm.stop.map StopEntry.time)

/-- The local time at which the port took its request (R178). -/
def State.takenAt (s : State) (p : Port) : Time := ((s.port p).executing.map Executing.takenAt).getD s.now

/-- The STATUS body for a port (R178, R185). -/
def State.statusBody (s : State) (p : Port) : List Byte :=
  bytes 2 Config.partCode ++ s.statusShow ++ s.statusWorks ++ s.statusPlant ++ bytes 4 (s.takenAt p).toNat ++
    bytes 1 s.mpShow.errorCount ++ bytes 1 s.mpPlant.errorCount ++ bytes 1 s.mpConsole.errorCount ++
    bytes 1 (s.port p).notices.length ++ flagByte (s.port p).dropped

/-- STATUS (R178). -/
def statusRequest (p : Port) (s : State) : Reply := (s, .ok, s.statusBody p)

/-! ## NOTICES (R182) -/

/-- A notice entry of eleven bytes (R184). -/
def Notice.toBytes (n : Notice) : List Byte :=
  bytes 1 n.kind.code ++ bytes 2 n.subject ++ bytes 4 n.detail ++ bytes 4 n.time.toNat

/-- NOTICES (R182): up to sixteen of the oldest entries are removed and returned; the notices-dropped flag is cleared. -/
def noticesRequest (p : Port) (s : State) : Reply :=
  let m := s.port p
  let taken := m.notices.take Config.noticesTaken
  (s.withPort p { m with notices := m.notices.drop Config.noticesTaken, dropped := false }.settle, .ok,
    bytes 1 taken.length ++ taken.flatMap Notice.toBytes)

/-! ## READ_CHANNEL (R179, R185) -/

/-- The effective owner: 0 PLANT, 1 CONSOLE, 2 SHOW (R59, R185). -/
def Ownership.ownerCode (o : Ownership) : Nat :=
  if o.lockout.isSome then 0 else if o.claim.isSome then 1 else 2

/-- The parts present: bit 0 claim, bit 1 lockout, bit 2 rejoin (R185). -/
def Ownership.partsCode (o : Ownership) : Nat :=
  (if o.claim.isSome then 1 else 0) + (if o.lockout.isSome then 2 else 0) + (if o.rejoin.isSome then 4 else 0)

/-- The claim's fields, bytes 4–25 (R185). -/
def claimBytes : Option Claim → List Byte
  | some k =>
    valueBytes k.value ++ valueBytes k.target ++ bytes 4 k.setTime.toNat ++ bytes 4 k.ramp ++ bytes 4 k.lease.toNat
  | none => absent 22

/-- The lockout's fields, bytes 26–32 (R185). -/
def lockoutBytes : Option Lockout → List Byte
  | some l => valueBytes l.value ++ flagByte l.heldOff ++ bytes 1 l.reason
  | none => absent 7

/-- The rejoin's fields, bytes 33–43 (R185). -/
def rejoinBytes : Option Rejoin → List Byte
  | some r => valueBytes r.fromValue ++ bytes 4 r.start.toNat ++ bytes 2 r.duration
  | none => absent 11

/-- The ACTIVE cue's fields with its present flag, bytes 58–78 (R185). -/
def activeCueBytes (l : List Cue) : List Byte :=
  match l.find? Cue.isActive with
  | some k =>
    match k.state with
    | .active v _ =>
      flagByte true ++ bytes 4 k.start ++ bytes 4 k.duration ++ bytes 1 k.curve.code ++ valueBytes k.target ++
        bytes 1 k.origin.code ++ valueBytes v
    | .pending => flagByte false ++ absent 20
  | none => flagByte false ++ absent 20

/-- The output table entry, bytes 79–82 (R179, R185). -/
def State.outputEntryBytes (s : State) (c : Channel) : List Byte :=
  if h : c.val < 16 then absent 4
  else if h2 : c.val < 144 then bytes 2 (s.out.valves[c.val - 16]'(by omega)) ++ absent 2
  else (s.out.lamps[c.val - 144]'(by omega)).toBytes

/-- The READ_CHANNEL body (R179, R185). -/
def State.channelBody (s : State) (c : Channel) : List Byte :=
  let o := s.cha.records[c]
  let l := s.cst.lists[c]
  bytes 2 c.val ++ bytes 1 o.ownerCode ++ bytes 1 o.partsCode ++ claimBytes o.claim ++ lockoutBytes o.lockout ++
    rejoinBytes o.rejoin ++ valueBytes (s.currentOutput c) ++ valueBytes s.cst.shown[c] ++ bytes 2 l.length ++
    bytes 2 (l.filter Cue.isPending).length ++ activeCueBytes l ++ s.outputEntryBytes c

/-- READ_CHANNEL (R179). -/
def readChannelRequest (body : List Byte) (s : State) : Reply :=
  if body.length ≠ 2 then refuse s .badArgument
  else
    match channelOf (field body 0 2) with
    | some c => (s, .ok, s.channelBody c)
    | none => refuse s .badArgument

/-! ## READ_DRIVE (R180, R185) -/

/-- The pending command's fields, bytes 3–8 (R185). -/
def pendingBytes : Option PendingCommand → List Byte
  | some p => bytes 1 p.command.code ++ bytes 4 p.requestTime.toNat ++ bytes 1 p.prior.code
  | none => absent 6

/-- The fault cause and trip code, bytes 14–15 (R185). -/
def faultBytes : Option FaultCause → List Byte
  | some (.trip c) => bytes 1 0 ++ bytes 1 c
  | some .powerTimeout => bytes 1 1 ++ bytes 1 0
  | none => absent 1 ++ bytes 1 0

/-- The telemetry with its present flag, bytes 17–25 (R185). -/
def telemetryBytes : Option Telemetry → List Byte
  | some t =>
    flagByte true ++ bytes 2 t.speed ++ bytes 2 t.current.toNat ++ bytes 2 t.pressure.toNat ++ [t.temperature, t.faultCode]
  | none => flagByte false ++ absent 8

/-- The READ_DRIVE body (R180, R185). -/
def State.driveReadBody (s : State) (i : Pump) : List Byte :=
  let d := s.dlc[i]
  let g := s.pgv.pumps[i]
  bytes 1 i.val ++ bytes 1 (presenceCode d.present) ++ bytes 1 d.power.code ++ pendingBytes d.pending ++
    flagByte d.deadline.isSome ++ optTime d.deadline ++ faultBytes d.fault ++ bytes 1 d.misses ++
    telemetryBytes d.telemetry ++ bytes 4 d.age ++ bytes 2 g.allowed ++ bytes 2 g.commanded ++ bytes 4 g.share

/-- READ_DRIVE (R180). -/
def readDriveRequest (body : List Byte) (s : State) : Reply :=
  match body with
  | [b] =>
    match pumpOf b.toNat with
    | some i => (s, .ok, s.driveReadBody i)
    | none => refuse s .badArgument
  | _ => refuse s .badArgument

/-! ## The commands -/

/-- TRANSACTION_START: the master asserts select (R172). While RESET_N is held the port takes no transaction: a request is the one
thing that could change a block then, and at the release every block holds its cold reset values (R194; notes/assumptions/32). -/
def execTransactionStart (p : Port) (s : State) : Host.Outcome State Fault Refusal :=
  .next (if s.clock.released = false ∨ (s.port p).transaction.isSome = true then s
    else s.withPort p { s.port p with transaction := some (s.fixed p) })

/-- TRANSACTION_END: the master releases select, having clocked these bytes in (R172, R173). -/
def execTransactionEnd (p : Port) (clockedIn : List Byte) (s : State) : Host.Outcome State Fault Refusal :=
  .next (s.withPort p ((s.port p).finish clockedIn))

/-- REQUEST_DISPATCH (R175). -/
def execRequestDispatch (p : Port) (s : State) : Host.Outcome State Fault Refusal := .next (s.dispatch p)

/-- STATUS (R178). -/
def execStatus (p : Port) (s : State) : Host.Outcome State Fault Refusal := .next (s.serve p 0x01 (bodiless (statusRequest p)))

/-- NOTICES (R182). -/
def execNotices (p : Port) (s : State) : Host.Outcome State Fault Refusal :=
  .next (s.serve p 0x02 (bodiless (noticesRequest p)))

/-- READ_CHANNEL (R179). -/
def execReadChannel (p : Port) (s : State) : Host.Outcome State Fault Refusal := .next (s.serve p 0x03 readChannelRequest)

/-- READ_DRIVE (R180). -/
def execReadDrive (p : Port) (s : State) : Host.Outcome State Fault Refusal := .next (s.serve p 0x04 readDriveRequest)

end Sys2Proof.Machine
end

