-- ==== Sys2Proof/Machine/Dispatch.lean ====
section
/-! DEFINITION. One arm per command: what each does to everything but the queue of waiting commands. -/

namespace Sys2Proof.Machine

def exec (i : Instr) (s : State) : Host.Outcome State Fault Refusal :=
  match i with
  | .coldReset => Sys2Proof.Machine.execColdReset s
  | .transactionStart p => Sys2Proof.Machine.execTransactionStart p s
  | .transactionEnd p clockedIn => Sys2Proof.Machine.execTransactionEnd p clockedIn s
  | .requestDispatch p => Sys2Proof.Machine.execRequestDispatch p s
  | .status p => Sys2Proof.Machine.execStatus p s
  | .notices p => Sys2Proof.Machine.execNotices p s
  | .readChannel p => Sys2Proof.Machine.execReadChannel p s
  | .readDrive p => Sys2Proof.Machine.execReadDrive p s
  | .arm => Sys2Proof.Machine.execArm s
  | .start => Sys2Proof.Machine.execStart s
  | .pause p => Sys2Proof.Machine.execPause p s
  | .resume p => Sys2Proof.Machine.execResume p s
  | .stop p => Sys2Proof.Machine.execStop p s
  | .cueLoad => Sys2Proof.Machine.execCueLoad s
  | .cueClear => Sys2Proof.Machine.execCueClear s
  | .audioBlock => Sys2Proof.Machine.execAudioBlock s
  | .audioFlush => Sys2Proof.Machine.execAudioFlush s
  | .volume p => Sys2Proof.Machine.execVolume p s
  | .claim => Sys2Proof.Machine.execClaim s
  | .set => Sys2Proof.Machine.execSet s
  | .release => Sys2Proof.Machine.execRelease s
  | .lockout => Sys2Proof.Machine.execLockout s
  | .unlock => Sys2Proof.Machine.execUnlock s
  | .estop => Sys2Proof.Machine.execEstop s
  | .estopReset => Sys2Proof.Machine.execEstopReset s
  | .drivePowerOn => Sys2Proof.Machine.execDrivePowerOn s
  | .drivePowerOff => Sys2Proof.Machine.execDrivePowerOff s
  | .driveClear => Sys2Proof.Machine.execDriveClear s
  | .wind => Sys2Proof.Machine.execWind s
  | .level => Sys2Proof.Machine.execLevel s
  | .budget => Sys2Proof.Machine.execBudget s
  | .configOpen => Sys2Proof.Machine.execConfigOpen s
  | .configWrite => Sys2Proof.Machine.execConfigWrite s
  | .configCommit => Sys2Proof.Machine.execConfigCommit s
  | .restart => Sys2Proof.Machine.execRestart s
  | .outputFrameEvent => Sys2Proof.Machine.execOutputFrameEvent s
  | .starvationHold => Sys2Proof.Machine.execStarvationHold s
  | .endOfShow => Sys2Proof.Machine.execEndOfShow s
  | .fadeEnd => Sys2Proof.Machine.execFadeEnd s
  | .startDeadlineExpiry => Sys2Proof.Machine.execStartDeadlineExpiry s
  | .slotExpiry => Sys2Proof.Machine.execSlotExpiry s
  | .channelEvaluation c => Sys2Proof.Machine.execChannelEvaluation c s
  | .outputSelection c => Sys2Proof.Machine.execOutputSelection c s
  | .commandComputation d => Sys2Proof.Machine.execCommandComputation d s
  | .valveAnswer j => Sys2Proof.Machine.execValveAnswer j s
  | .fixtureRendering f => Sys2Proof.Machine.execFixtureRendering f s
  | .frameHandover l => Sys2Proof.Machine.execFrameHandover l s
  | .frameEnd l => Sys2Proof.Machine.execFrameEnd l s
  | .exchangeCompletion window => Sys2Proof.Machine.execExchangeCompletion window s
  | .powerDeadlineExpiry d => Sys2Proof.Machine.execPowerDeadlineExpiry d s
  | .leaseExpiry c => Sys2Proof.Machine.execLeaseExpiry c s
  | .windDeadlineExpiry => Sys2Proof.Machine.execWindDeadlineExpiry s
  | .levelDeadlineExpiry => Sys2Proof.Machine.execLevelDeadlineExpiry s
  | .estopNChange low => Sys2Proof.Machine.execEstopNChange low s
  | .debounceDeadlineExpiry => Sys2Proof.Machine.execDebounceDeadlineExpiry s
  | .resetNRelease => Sys2Proof.Machine.execResetNRelease s

end Sys2Proof.Machine
end

