-- ==== Sys2Proof/Safety.lean ====
section
/-! DEFINITION. What counts as a safe state: the laws of the device that speak of one state (the laws that speak of a change,
R3, R110, R113 and part of R169, are stated with the commands), and the well-formedness of the tables and of the sequencer
record. -/

namespace Sys2Proof.Machine

/-! ## What a command may write -/

/-- The parts of the state: one for each field of `State`. -/
inductive Part where
  | mpShow | mpPlant | mpConsole | seq | plu | cst | cha | fsc | pgv | dlc | out | plm | cfg | tables | clock | pending
deriving DecidableEq, Repr

/-- Two states hold the same at a part. -/
def State.sameAt (a : Part) (s t : State) : Prop :=
  match a with
  | .mpShow => t.mpShow = s.mpShow
  | .mpPlant => t.mpPlant = s.mpPlant
  | .mpConsole => t.mpConsole = s.mpConsole
  | .seq => t.seq = s.seq
  | .plu => t.plu = s.plu
  | .cst => t.cst = s.cst
  | .cha => t.cha = s.cha
  | .fsc => t.fsc = s.fsc
  | .pgv => t.pgv = s.pgv
  | .dlc => t.dlc = s.dlc
  | .out => t.out = s.out
  | .plm => t.plm = s.plm
  | .cfg => t.cfg = s.cfg
  | .tables => t.tables = s.tables
  | .clock => t.clock = s.clock
  | .pending => t.pending = s.pending

/-- `t` differs from `s` at the parts listed and nowhere else. -/
structure State.Within (parts : List Part) (s t : State) : Prop where
  same : ∀ a, a ∉ parts → s.sameAt a t

/-- The part of a master port. -/
def portPart : Port → Part
  | .showPort => .mpShow
  | .plantPort => .mpPlant
  | .consolePort => .mpConsole

/-- The parts of the state a command may write, by the block organisation of 00_scope ("Each block owns a definite part of the
device's state") and the rules of each command. -/
def writes : Instr → List Part
  | .coldReset =>
    [.mpShow, .mpPlant, .mpConsole, .seq, .plu, .cst, .cha, .fsc, .pgv, .dlc, .out, .plm, .cfg, .tables, .clock]
  | .transactionStart p | .transactionEnd p _ | .requestDispatch p | .status p | .notices p | .readChannel p | .readDrive p =>
    [portPart p]
  | .arm => [.mpShow, .mpPlant, .mpConsole, .seq, .plu, .pgv, .dlc]
  | .start | .resume _ => [.mpShow, .mpPlant, .mpConsole, .seq, .plu]
  | .pause _ | .starvationHold | .fadeEnd => [.mpShow, .mpPlant, .mpConsole, .seq]
  | .stop _ | .endOfShow | .outputFrameEvent => [.mpShow, .mpPlant, .mpConsole, .seq, .plu, .cst]
  | .cueLoad | .cueClear => [.mpShow, .cst]
  | .audioBlock => [.mpShow, .mpPlant, .mpConsole, .seq, .plu]
  | .audioFlush => [.mpShow, .plu]
  | .volume p => [portPart p, .plu]
  | .claim | .set | .release | .leaseExpiry _ => [.mpConsole, .cha]
  | .lockout => [.mpPlant, .mpConsole, .cha, .dlc, .pgv]
  | .unlock => [.mpPlant, .cha]
  | .estop | .estopReset | .debounceDeadlineExpiry => [.mpShow, .mpPlant, .mpConsole, .seq, .plu, .cst, .cha, .fsc, .plm]
  | .drivePowerOn | .drivePowerOff => [.mpPlant, .dlc, .pgv]
  | .driveClear => [.mpPlant, .dlc]
  | .wind => [.mpPlant, .plm, .pgv]
  | .level => [.mpShow, .mpPlant, .plm]
  | .budget => [.mpPlant, .pgv]
  | .configOpen => [.mpShow, .mpPlant, .mpConsole, .seq, .cfg]
  | .configWrite => [.mpPlant, .cfg]
  | .configCommit => [.mpShow, .mpPlant, .mpConsole, .seq, .cst, .fsc, .pgv, .cfg, .tables]
  | .restart => [.mpShow, .mpPlant, .mpConsole, .seq, .plu, .cst, .cha]
  | .startDeadlineExpiry => [.mpShow, .seq]
  | .slotExpiry => [.mpPlant, .fsc, .plm, .dlc, .clock]
  | .channelEvaluation _ => [.mpShow, .cst, .fsc]
  | .outputSelection _ => [.cha, .fsc]
  | .commandComputation _ => [.mpPlant, .pgv, .fsc]
  | .valveAnswer _ | .fixtureRendering _ | .frameEnd _ => [.fsc]
  | .frameHandover _ => [.fsc, .out, .dlc]
  | .exchangeCompletion _ => [.mpShow, .mpPlant, .pgv, .dlc, .fsc]
  | .powerDeadlineExpiry _ => [.mpShow, .mpPlant, .pgv, .dlc]
  | .windDeadlineExpiry => [.mpShow, .mpPlant, .plm, .pgv]
  | .levelDeadlineExpiry => [.mpShow, .mpPlant, .plm]
  | .estopNChange _ => [.plm]
  | .resetNRelease => [.plm, .clock]

/-- A request of this kind, tag and body is in execution on the port (R171, R175). -/
def State.InExecution (s : State) (p : Port) (kind tag : Byte) (body : List Byte) : Prop :=
  ∃ at_, (s.port p).executing = some ⟨⟨kind, tag, body⟩, at_⟩

/-- The command takes the request of this kind, tag and body in execution on port `p`, and answers it: the state becomes `t`,
and then the response is placed (R175). -/
def Answers (c : Instr) (s : State) (p : Port) (kind tag : Byte) (body : List Byte) (t : State) (r : Result)
    (reply : List Byte) : Prop :=
  exec c s = .next (t.answer p ⟨kind, tag, body⟩ r reply)

/-! ## Bodies of responses (R177, R185) -/

/-- The bytes of a body from byte `n` on are those of `piece`. -/
def CarriedAt (reply : List Byte) (n : Nat) (piece : List Byte) : Prop := (reply.drop n).take piece.length = piece

/-- A value in five bytes: a level in two with three of 00h, or R, G, B, W and I (R185). -/
def ValueAt (reply : List Byte) (n : Nat) (v : Value) : Prop :=
  (∀ level, v = .level level → CarriedAt reply n (bytes 2 level ++ [0, 0, 0])) ∧
  ∀ c, v = .colour c → CarriedAt reply n ([c.r, c.g, c.b, c.w, c.i].flatMap (bytes 1))

/-- An optional field in `k` bytes, FFh in each when it is absent (R185). -/
def OptionAt (reply : List Byte) (n k : Nat) (x : Option Nat) : Prop :=
  (x = none → CarriedAt reply n (List.replicate k 0xFF)) ∧ ∀ v, x = some v → CarriedAt reply n (bytes k v)

/-- The body of READ_CHANNEL for channel `c` (R179, R185): the owner and the parts of the record with all their fields, the current
output value (R62), the show value, the counts of the list, the ACTIVE cue and the output table entry. -/
def State.ChannelReported (s : State) (c : Channel) (reply : List Byte) : Prop :=
  (∀ o, o = s.cha.records[c] →
    CarriedAt reply 0 (bytes 2 c.val ++
      bytes 1 (if o.lockout.isSome then 0 else if o.claim.isSome then 1 else 2) ++
      bytes 1 ((if o.claim.isSome then 1 else 0) + (if o.lockout.isSome then 2 else 0) + (if o.rejoin.isSome then 4 else 0))) ∧
    (o.claim = none → CarriedAt reply 4 (List.replicate 22 0xFF)) ∧
    (∀ k, o.claim = some k → ValueAt reply 4 k.value ∧ ValueAt reply 9 k.target ∧
      CarriedAt reply 14 (bytes 4 k.setTime.toNat ++ bytes 4 k.ramp ++ bytes 4 k.lease.toNat)) ∧
    (o.lockout = none → CarriedAt reply 26 (List.replicate 7 0xFF)) ∧
    (∀ l, o.lockout = some l → ValueAt reply 26 l.value ∧
      CarriedAt reply 31 (bytes 1 (if l.heldOff then 1 else 0) ++ bytes 1 l.reason)) ∧
    (o.rejoin = none → CarriedAt reply 33 (List.replicate 11 0xFF)) ∧
    (∀ r, o.rejoin = some r → ValueAt reply 33 r.fromValue ∧ CarriedAt reply 38 (bytes 4 r.start.toNat ++ bytes 2 r.duration)) ∧
    (∀ l, o.lockout = some l → ValueAt reply 44 l.value) ∧
    (∀ k, o.lockout = none → o.claim = some k → ValueAt reply 44 (if k.ramp = 0 then k.target
      else k.value.ramp k.target (min (s.clock.now - k.setTime).toNat k.ramp) k.ramp)) ∧
    (o.lockout = none → o.claim = none → o.rejoin = none → ValueAt reply 44 s.cst.shown[c]) ∧
    ∀ r, o.lockout = none → o.claim = none → o.rejoin = some r → ValueAt reply 44
      (if r.duration ≤ (s.clock.now - r.start).toNat then s.cst.shown[c]
        else r.fromValue.ramp s.cst.shown[c] (s.clock.now - r.start).toNat r.duration)) ∧
  ValueAt reply 49 s.cst.shown[c] ∧
  CarriedAt reply 54 (bytes 2 s.cst.lists[c].length ++ bytes 2 (s.cst.lists[c].filter Cue.isPending).length) ∧
  ((∀ k ∈ s.cst.lists[c], k.isPending = true) → CarriedAt reply 58 (0 :: List.replicate 20 0xFF)) ∧
  (∀ k post v a, s.cst.lists[c] = k :: post → k.state = .active v a →
    CarriedAt reply 58 (1 :: bytes 4 k.start ++ bytes 4 k.duration ++ bytes 1 k.curve.code) ∧ ValueAt reply 68 k.target ∧
      CarriedAt reply 73 (bytes 1 k.origin.code) ∧ ValueAt reply 74 v) ∧
  (∀ i, pumpChannel i = c → CarriedAt reply 79 [0xFF, 0xFF, 0xFF, 0xFF]) ∧
  (∀ j, jetChannel j = c → CarriedAt reply 79 (bytes 2 s.out.valves[j] ++ [0xFF, 0xFF])) ∧
  ∀ f l, fixtureChannel f = c → l = s.out.lamps[f] → CarriedAt reply 79 ([l.r, l.g, l.b, l.w].flatMap (bytes 1))

/-- The body of READ_DRIVE for drive `i` (R180, R185): every field of the drive record, and the pump's allowed speed, commanded
speed and ledger share. -/
def State.DriveReported (s : State) (i : Pump) (reply : List Byte) : Prop :=
  ∀ d p, d = s.dlc[i] → p = s.pgv.pumps[i] →
    CarriedAt reply 0 (bytes 1 i.val ++ bytes 1 (if d.present then 1 else 0) ++ bytes 1 d.power.code) ∧
    (d.pending = none → CarriedAt reply 3 (List.replicate 6 0xFF)) ∧
    (∀ q, d.pending = some q → CarriedAt reply 3 (bytes 1 q.command.code ++ bytes 4 q.requestTime.toNat ++ bytes 1 q.prior.code)) ∧
    (d.deadline = none → CarriedAt reply 9 [0, 0xFF, 0xFF, 0xFF, 0xFF]) ∧
    (∀ t, d.deadline = some t → CarriedAt reply 9 (1 :: bytes 4 t.toNat)) ∧
    (d.fault = none → CarriedAt reply 14 [0xFF, 0]) ∧ (∀ n, d.fault = some (.trip n) → CarriedAt reply 14 (0 :: bytes 1 n)) ∧
    (d.fault = some .powerTimeout → CarriedAt reply 14 [1, 0]) ∧
    CarriedAt reply 16 (bytes 1 d.misses) ∧
    (d.telemetry = none → CarriedAt reply 17 (0 :: List.replicate 8 0xFF)) ∧
    (∀ x, d.telemetry = some x → CarriedAt reply 17
      (1 :: bytes 2 x.speed ++ bytes 2 x.current.toNat ++ bytes 2 x.pressure.toNat ++ [x.temperature, x.faultCode])) ∧
    CarriedAt reply 26 (bytes 4 d.age ++ bytes 2 p.allowed ++ bytes 2 p.commanded ++ bytes 4 p.share)

/-- The body of STATUS for port `p`, whose request was taken at `at_` (R178, R185). The expected next position and the lead are those
below 2^32; what a greater one is reported as is the model's free value (notes/assumptions/27). -/
def State.StatusReported (s : State) (p : Port) (at_ : Time) (reply : List Byte) : Prop :=
  CarriedAt reply 0 (bytes 2 0x4820 ++ bytes 1 s.cfg.state.code ++ bytes 1 s.seq.showState.code) ∧
  OptionAt reply 4 1 (s.seq.holdCause.map HoldCause.code) ∧
  CarriedAt reply 5 (bytes 1 s.seq.idleCause.code ++ bytes 1 s.seq.resetOrigin.code ++
    bytes 1 (if s.seq.startDeadline.isSome then 1 else 0)) ∧
  OptionAt reply 8 4 (s.seq.startDeadline.map BitVec.toNat) ∧ OptionAt reply 12 4 s.seq.endPosition ∧
  OptionAt reply 16 4 s.seq.fadeEnd ∧ OptionAt reply 20 1 (s.seq.fadeCause.map FadeCause.code) ∧
  CarriedAt reply 21 (bytes 1 (if s.seq.silent then 1 else 0) ++ bytes 4 s.plu.position) ∧
  (s.plu.expectedNext < 4294967296 → CarriedAt reply 26 (bytes 4 s.plu.expectedNext)) ∧
  (s.plu.lead < 4294967296 → CarriedAt reply 30 (bytes 4 s.plu.lead)) ∧
  CarriedAt reply 34 (bytes 4 s.plu.starvation ++ bytes 2 s.plu.volume ++ bytes 1 (if s.plu.lowMarkArmed then 1 else 0) ++
    bytes 2 s.cst.free ++ bytes 4 s.cst.skipped ++ bytes 1 s.cha.claimCount ++ bytes 4 s.pgv.total ++ bytes 4 s.pgv.budget ++
    bytes 1 (if s.pgv.excess then 1 else 0)) ∧
  OptionAt reply 57 2 s.plm.windSpeed ∧
  CarriedAt reply 59 (bytes 1 (if s.plm.windDeadline.isSome then 0 else 1) ++ bytes 4 s.plm.windAge) ∧
  OptionAt reply 64 2 s.plm.basinLevel ∧
  CarriedAt reply 66 (bytes 1 (if s.plm.levelDeadline.isSome then 0 else 1) ++ bytes 4 s.plm.levelAge ++
    bytes 1 (if s.plm.lowWater then 1 else 0) ++ bytes 1 (if s.plm.lineActive then 0 else 1) ++
    bytes 1 (if s.plm.latch then 1 else 0) ++ bytes 1 (if s.estop then 1 else 0)) ∧
  OptionAt reply 75 1 (s.plm.stop.map fun e => e.cause.code) ∧ OptionAt reply 76 4 (s.plm.stop.map fun e => e.time.toNat) ∧
  CarriedAt reply 80 (bytes 4 at_.toNat ++ bytes 1 s.mpShow.errorCount ++ bytes 1 s.mpPlant.errorCount ++
    bytes 1 s.mpConsole.errorCount ++ bytes 1 (s.port p).notices.length ++ bytes 1 (if (s.port p).dropped then 1 else 0))

/-! ## Changes that several statements speak of -/

/-- The free-pool-low test of R46, at the end of an operation on `s` that leaves `free` records: the flag becomes `armed`, and the
SHOW port, which stood as `before`, becomes `after`, CUES_LOW having been raised or not. -/
def State.PoolTested (s : State) (before : MasterPort) (free : Nat) (armed : Bool) (after : MasterPort) : Prop :=
  (s.cst.poolLowArmed = true → free < s.tables.limits.lowPool →
    armed = false ∧ after = before.place ⟨.cuesLow, 0, free, s.clock.now⟩) ∧
  (s.cst.poolLowArmed = true → s.tables.limits.lowPool ≤ free → armed = true ∧ after = before) ∧
  (s.cst.poolLowArmed = false → after = before ∧ (armed = true ↔ s.tables.limits.lowPool + 64 ≤ free))

/-- The show goes into its fade: the record, the flushed queue, one FADE cue per channel, the free-pool-low test and SHOW_STATE
(R5, R14, R16, R46, R54). The flush makes no low-mark test (R37; notes/assumptions/6). -/
def State.FadesFrom (s : State) (cause : FadeCause) (t : State) : Prop :=
  t.seq.showState = .fading ∧ t.seq.fadeEnd = some (s.plu.position + s.tables.limits.fadeTime * 48) ∧
  t.seq.fadeCause = some cause ∧ t.seq.startDeadline = none ∧ t.seq.holdCause = none ∧
  t.seq.endPosition = s.seq.endPosition ∧ t.seq.silent = s.seq.silent ∧ t.plu = { s.plu with queue := [] } ∧
  (∀ c : Channel, t.cst.lists[c] =
    [⟨s.plu.position / 48, s.tables.limits.fadeTime, .linear, s.tables.restValue c, .fade, .pending⟩]) ∧
  t.cst.free = 3760 ∧ t.cst.shown = s.cst.shown ∧ t.cst.skipped = s.cst.skipped ∧
  ∃ m, s.PoolTested s.mpShow 3760 t.cst.poolLowArmed m ∧
    t.mpShow = m.place ⟨.showState, 0, s.plu.position, s.clock.now⟩ ∧
    t.mpPlant = s.mpPlant.place ⟨.showState, 0, s.plu.position, s.clock.now⟩ ∧
    t.mpConsole = s.mpConsole.place ⟨.showState, 0, s.plu.position, s.clock.now⟩

/-- A port on which the entry into an emergency stop has placed ESTOP, with detail 1 for the line and 2 for the latch, and then
SHOW_STATE, unless the show is UNCONFIGURED or was already IDLE with idle cause ESTOP (R5, R167). -/
def State.stopNoticed (s : State) (cause : EntryCause) (m : MasterPort) : MasterPort :=
  let e := m.place ⟨.estop, 0, match cause with | .line => 1 | .latch => 2, s.clock.now⟩
  if s.seq.showState = .unconfigured ∨
      (s.seq.showState = .idle ∧ s.seq.holdCause = none ∧ s.seq.idleCause = .estop) then e
  else e.place ⟨.showState, 0, s.plu.position, s.clock.now⟩

/-- The emergency stop has been entered (R167): SEQ, CST, PLU and CHA have taken their parts; ESTOP, SHOW_STATE and, for every
claim removed in ascending channel order, CLAIM_LOST with detail 65,535 are raised (R73), and the free-pool-low test is made
(R46). FSC's state stands (R91). The flush makes no low-mark test (R37; notes/assumptions/6). -/
def State.StopEntered (s : State) (cause : EntryCause) (t : State) : Prop :=
  t.plm.stop = some ⟨cause, s.clock.now, 0⟩ ∧
  (s.seq.showState ≠ .unconfigured → t.seq.showState = .idle ∧ t.seq.idleCause = .estop ∧ t.seq.startDeadline = none ∧
    t.seq.holdCause = none ∧ t.seq.endPosition = none ∧ t.seq.fadeEnd = none ∧ t.seq.fadeCause = none ∧
    t.seq.silent = false) ∧
  (s.seq.showState = .unconfigured → t.seq = s.seq) ∧
  (∀ c : Channel, t.cst.lists[c] = [⟨s.plu.position / 48, 0, .step, s.tables.restValue c, .rest, .pending⟩] ∧
    t.cha.records[c] = ⟨none, s.cha.records[c].lockout, none⟩) ∧
  t.cst.free = 3760 ∧ t.cst.shown = s.cst.shown ∧ t.plu = { s.plu with queue := [] } ∧ t.cha.claimCount = 0 ∧ t.fsc = s.fsc ∧
  t.mpPlant = s.stopNoticed cause s.mpPlant ∧
  s.PoolTested (s.stopNoticed cause s.mpShow) 3760 t.cst.poolLowArmed t.mpShow ∧
  t.mpConsole = ((List.finRange 336).filter fun c => s.cha.records[c].claim.isSome).foldl
    (fun m c => m.place ⟨.claimLost, c.val, 65535, s.clock.now⟩) (s.stopNoticed cause s.mpConsole)

/-- The emergency stop has been left (R168): ESTOP_CLEAR is raised to all three ports with the length of the stop, and every
channel without a lockout rejoins the show from the value last driven on it (R75), which for a jet or a fixture also takes the place
of a value handed on for it to be answered (R145, R153). FSC's state stands otherwise (R91): a pump keeps the value handed on for it
(R104). -/
def State.StopLeft (s : State) (e : StopEntry) (t : State) : Prop :=
  t.plm.stop = none ∧ t.seq = s.seq ∧ t.plu = s.plu ∧ t.cst = s.cst ∧ t.cha.claimCount = 0 ∧
  (∀ p : Port, t.port p = (s.port p).place ⟨.estopClear, 0, e.length, s.clock.now⟩) ∧
  (t.fsc.pointer = s.fsc.pointer ∧ t.fsc.overruns = s.fsc.overruns ∧ t.fsc.management = s.fsc.management ∧
    t.fsc.drive = s.fsc.drive) ∧
  (∀ l : Line, (∀ g v, s.fsc.line l = .assembling g → g.ask ≠ .answer v) → t.fsc.line l = s.fsc.line l) ∧
  ∀ c : Channel,
    (∀ l, s.cha.records[c].lockout = some l → t.cha.records[c] = ⟨none, some l, none⟩ ∧ t.handedOn c = s.handedOn c) ∧
    (s.cha.records[c].lockout = none → ∃ v, t.cha.records[c] = ⟨none, none, some ⟨v, s.clock.now, s.tables.limits.rejoinTime c⟩⟩ ∧
      (∀ i, pumpChannel i = c → v = .level s.pgv.pumps[i].commanded ∧ t.handedOn c = s.handedOn c) ∧
      (∀ g w, 16 ≤ c.val → s.handedOn c = some (g, w) → t.handedOn c = some ({ g with ask := .answer v }, v)) ∧
      (∀ j, jetChannel j = c → v = .level s.out.valves[j]) ∧
      ∀ f, fixtureChannel f = c → v = .colour s.tables.fixtures[f].safety)

/-! ## Lists of entries, taken in order (R41, R63, R67, R69, R72) -/

/-- What became of one entry of a request's list: the first or the second kind of success that the response counts, or a refusal
with its reason (R45, R65, R67, R70, R72). -/
inductive Taken where
  | first
  | second
  | refused (reason : Result)
deriving DecidableEq, Repr

/-- The entry was refused. -/
def Taken.isRefused : Taken → Bool
  | .refused _ => true
  | .first | .second => false

/-- The entries of a list are taken in the order in which they stand, each on the state that the ones before it left. -/
def TakenInOrder {α : Type} (One : State → α → Taken → State → Prop) : State → List α → List Taken → State → Prop
  | s, [], os, t => os = [] ∧ t = s
  | s, n :: ns, os, t => ∃ o rest u, os = o :: rest ∧ One s n o u ∧ TakenInOrder One u ns rest t

/-- The result of a request with these outcomes: OK when no entry was refused, PARTIAL otherwise. -/
def takenResult (os : List Taken) : Result := if os.any Taken.isRefused then .partialResult else .ok

/-- The number of refused entries, the index of the first of them (255 when there is none) and its reason (0 when there is
none). -/
def refusedCount (os : List Taken) : Nat := (os.filter Taken.isRefused).length
def refusedIndex (os : List Taken) : Nat := (os.findIdx? Taken.isRefused).getD 255
def refusedReason (os : List Taken) : Nat :=
  match os.find? Taken.isRefused with
  | some (.refused r) => r.code
  | _ => 0

/-- One entry of a CLAIM (R64): refused above channel 335, on a lockout and at the limit of 64 claims; a claim present is
refreshed, a completed ramp settling at its target; a new claim holds the channel at its current output value and removes a
rejoin. -/
def State.ClaimsOne (s : State) (n : Nat) (o : Taken) (t : State) : Prop :=
  (336 ≤ n → o = .refused .badArgument ∧ t = s) ∧
  ∀ (c : Channel) (lease : Time), c.val = n → lease = s.clock.now + BitVec.ofNat 32 s.tables.limits.lease →
    (s.cha.records[c].lockout ≠ none → o = .refused .channelLocked ∧ t = s) ∧
    (s.cha.records[c].lockout = none →
      (∀ k, s.cha.records[c].claim = some k → o = .second ∧
        t = s.withRecord c { s.cha.records[c] with
          claim := some (if k.ramp = 0 ∨ k.ramp ≤ (s.clock.now - k.setTime).toNat then
            { k with value := k.target, setTime := s.clock.now, lease := lease } else { k with lease := lease }) }) ∧
      (s.cha.records[c].claim = none →
        (64 ≤ s.cha.claimCount → o = .refused .claimLimit ∧ t = s) ∧
        (s.cha.claimCount < 64 → o = .first ∧
          t = (s.withRecord c ⟨some ⟨s.currentOutput c, s.currentOutput c, s.clock.now, 0, lease⟩, none, none⟩).withClaimCount
            (s.cha.claimCount + 1))))

/-- One entry of a RELEASE (R67): refused above channel 335; a claim ends with a rejoin from its manual output; a channel without
a claim is counted and left as it is. -/
def State.ReleasesOne (s : State) (n : Nat) (o : Taken) (t : State) : Prop :=
  (336 ≤ n → o = .refused .badArgument ∧ t = s) ∧
  ∀ c : Channel, c.val = n →
    (s.cha.records[c].claim = none → o = .second ∧ t = s) ∧
    ∀ k, s.cha.records[c].claim = some k → o = .first ∧
      ∀ output : Value, output = (if k.ramp = 0 then k.target
        else k.value.ramp k.target (min (s.clock.now - k.setTime).toNat k.ramp) k.ramp) →
        t = (s.withRecord c { s.cha.records[c] with
          claim := none
          rejoin := some ⟨output, s.clock.now, s.tables.limits.rejoinTime c⟩ }).withClaimCount (s.cha.claimCount - 1)

/-- One entry of a LOCKOUT with value bytes `v` (R69–R71): refused above channel 335; else a claim is removed, with CLAIM_LOST, and
a rejoin, and the channel is held at the lock value decoded by its kind; on a pump with held-off set its PRESENT drive that is ON
or POWERING_UP is taken down, its commanded speed kept. -/
def State.LocksOne (v : List Byte) (held reason : Byte) (s : State) (n : Nat) (o : Taken) (t : State) : Prop :=
  (336 ≤ n → o = .refused .badArgument ∧ t = s) ∧
  ∀ c : Channel, c.val = n →
    o = (if s.cha.records[c].lockout.isSome then .second else .first) ∧
    s.Within [.cha, .mpConsole, .mpPlant, .dlc, .pgv] t ∧
    t.cha.records[c] = ⟨none, some ⟨decodeValue c v, decide (held ≠ 0) && decide (c.val < 16), reason.toNat⟩, none⟩ ∧
    (∀ d : Channel, d ≠ c → t.cha.records[d] = s.cha.records[d]) ∧
    t.cha.claimCount = s.cha.claimCount - (if s.cha.records[c].claim.isSome then 1 else 0) ∧
    (s.cha.records[c].claim = none → t.mpConsole = s.mpConsole) ∧
    (s.cha.records[c].claim ≠ none → t.mpConsole = s.mpConsole.place ⟨.claimLost, c.val, reason.toNat, s.clock.now⟩) ∧
    ∀ i : Pump, t.pgv.pumps[i].commanded = s.pgv.pumps[i].commanded ∧ t.dlc[i] =
      if pumpChannel i = c ∧ held ≠ 0 ∧ s.dlc[i].present = true ∧
          (s.dlc[i].power = .on ∨ s.dlc[i].power = .poweringUp) then
        { s.dlc[i] with
          power := .poweringDown
          pending := some ⟨.powerOff, s.clock.now,
            if s.dlc[i].power = .on then .on else (s.dlc[i].pending.map PendingCommand.prior).getD .poweringUp, false⟩ }
      else s.dlc[i]

/-- One entry of an UNLOCK (R72): refused above channel 335; a lockout ends with a rejoin from its lock value, unless an emergency
stop is in effect; a channel without a lockout is counted and left as it is. -/
def State.UnlocksOne (s : State) (n : Nat) (o : Taken) (t : State) : Prop :=
  (336 ≤ n → o = .refused .badArgument ∧ t = s) ∧
  ∀ c : Channel, c.val = n →
    (s.cha.records[c].lockout = none → o = .second ∧ t = s) ∧
    ∀ l, s.cha.records[c].lockout = some l → o = .first ∧
      t = s.withRecord c { s.cha.records[c] with
        lockout := none
        rejoin := if s.estop then s.cha.records[c].rejoin
          else some ⟨l.value, s.clock.now, s.tables.limits.rejoinTime c⟩ }

/-- One cue list under the second law (R40): strictly increasing starts; only the first cue can be ACTIVE. -/
def CueListLaw (l : List Cue) : Prop :=
  l.Pairwise (fun a b => a.start < b.start) ∧ ∀ k ∈ l.tail, k.isPending = true

/-- The second law (R40), of every list. -/
def State.CueLaw (s : State) : Prop := ∀ c : Channel, CueListLaw s.cst.lists[c]

/-- The list of channel `c` becomes `l`, with `free` records left in the free list. -/
def State.withCues (s : State) (c : Channel) (l : List Cue) (free : Nat) : State :=
  s.withCst { s.cst with lists := s.cst.lists.set c l, free := free }

/-- One entry of sixteen bytes of a CUE_LOAD (R41–R43): refused above channel 335, with an unknown curve code or with a start beyond
86,399,999, and no list changes; else, on a list that obeys the second law, the cue of the same start is updated in place, or the entry
takes the record of an ACTIVE cue that starts later, or is inserted in start order with a record of the free list, and refused where
that is empty. -/
def State.LoadsOne (s : State) (entry : List Byte) (o : Taken) (t : State) : Prop :=
  (335 < field entry 0 2 ∨ 2 < field entry 10 1 ∨ 86399999 < field entry 2 4 → o = .refused .badArgument ∧ t = s) ∧
  ∀ (c : Channel) (curve : Curve) (e : Cue), field entry 0 2 = c.val → field entry 10 1 = curve.code →
    e = ⟨field entry 2 4, min (field entry 6 4) 600000, curve, decodeValue c ((entry.drop 11).take 5), .loaded, .pending⟩ →
    e.start ≤ 86399999 → CueListLaw s.cst.lists[c] →
    (∀ pre k post, s.cst.lists[c] = pre ++ k :: post → k.start = e.start → o = .second ∧
      ∃ k' : Cue, k' = ⟨k.start, e.duration, curve, e.target, .loaded, k'.state⟩ ∧ (k.state = .pending → k'.state = .pending) ∧
        (∀ v a, k.state = .active v a → k'.state = .active v none) ∧ t = s.withCues c (pre ++ k' :: post) s.cst.free) ∧
    ((∀ k ∈ s.cst.lists[c], k.start ≠ e.start) →
      (∀ k post, s.cst.lists[c] = k :: post → k.isActive = true → e.start < k.start →
        o = .first ∧ t = s.withCues c (e :: post) s.cst.free) ∧
      ((∀ k ∈ s.cst.lists[c], k.isActive = true → k.start < e.start) →
        (s.cst.free = 0 → o = .refused .poolFull ∧ t = s) ∧
        (0 < s.cst.free → o = .first ∧ t = s.withCues c ((s.cst.lists[c].filter fun k => k.start < e.start) ++
          e :: s.cst.lists[c].filter fun k => e.start < k.start) (s.cst.free - 1))))

/-! ## The judgement of a drive's reply (R112, R119, R130) -/

/-- The budget test of R112 on a new ledger total: the flag becomes `excess`, and the PLANT port, which stood as `before`, becomes
`after`. -/
def State.BudgetTested (s : State) (before : MasterPort) (total : Nat) (excess : Bool) (after : MasterPort) : Prop :=
  (s.pgv.excess = false → s.pgv.budget < total →
    excess = true ∧ after = before.place ⟨.budgetExcess, 0, total - s.pgv.budget, s.clock.now⟩) ∧
  (s.pgv.excess = true → total ≤ s.pgv.budget →
    excess = false ∧ after = before.place ⟨.budgetOk, 0, s.pgv.budget - total, s.clock.now⟩) ∧
  ((s.pgv.excess = true ↔ s.pgv.budget < total) → excess = s.pgv.excess ∧ after = before)

/-- A port on which notices about drive `i`, each a kind with its detail, have been placed in order. -/
def State.placed (s : State) (i : Pump) (ns : List (NoticeKind × Nat)) (m : MasterPort) : MasterPort :=
  ns.foldl (fun m n => m.place ⟨n.1, i.val, n.2, s.clock.now⟩) m

/-- The notices among them that go to the SHOW port as well as to the PLANT port (R125, R127). -/
def alsoToShow (ns : List (NoticeKind × Nat)) : List (NoticeKind × Nat) :=
  ns.filter fun n => decide (n.1 = .driveLost) || decide (n.1 = .driveFault)

/-- The record of drive `i` becomes `d`, with nothing reported to the governor, and these notices are raised. -/
def State.DriveKept (s t : State) (i : Pump) (d : DriveRecord) (ns : List (NoticeKind × Nat)) : Prop :=
  t.dlc[i] = d ∧ t.pgv = s.pgv ∧ t.mpPlant = s.placed i ns s.mpPlant ∧ t.mpShow = s.placed i (alsoToShow ns) s.mpShow

/-- The record of drive `i` becomes `d`; the governor, told of it, sets the pump's values to `q`, recomputes the total and makes
the budget test (R98–R100, R112); and these notices are raised. -/
def State.DriveChanged (s t : State) (i : Pump) (d : DriveRecord) (q : PumpState) (ns : List (NoticeKind × Nat)) : Prop :=
  t.dlc[i] = d ∧ t.pgv.pumps = s.pgv.pumps.set i q ∧ t.pgv.total = ledgerTotal t.pgv.pumps ∧ t.pgv.budget = s.pgv.budget ∧
  t.mpShow = s.placed i (alsoToShow ns) s.mpShow ∧
  ∃ m, s.BudgetTested s.mpPlant t.pgv.total t.pgv.excess m ∧ t.mpPlant = s.placed i ns m

/-- `check` gives the check of each drive frame to drive `i`: over the address byte, the kind byte and the fields (R121; the widths are
those of notes/assumptions/12). -/
def ChecksDriveFrames (i : Pump) (check : DriveFrame → BitVec 16) : Prop :=
  ∀ address : Byte, address = BitVec.ofNat 8 (i.val + 1) →
    (∀ n, check (.speed n) = crc ([address, Config.speedKindCode] ++ bytes 2 n)) ∧
    (∀ on, check (.power on) = crc [address, Config.powerKindCode, if on then 1 else 0]) ∧
    check .clear = crc [address, Config.clearKindCode] ∧ check .probe = crc [address, Config.probeKindCode]

/-- Drive `i`, whose record stands as `b`, is judged as found with the reported state `r` and the stored telemetry `y`: the table
of R130, the adoption of R100, at any speed for a drive `returning` from local control, and the power-off that a lockout with
held-off set calls for. -/
def State.DriveFound (s t : State) (i : Pump) (b : DriveRecord) (r : Reported) (y : Telemetry)
    (returning : Bool) (ns : List (NoticeKind × Nat)) : Prop :=
  ∀ (e : DriveRecord) (rest : PumpState) (deadline : Time), e = { b with pending := none, fault := none, deadline := none } →
    rest = { s.pgv.pumps[i] with commanded := 0, share := 0 } →
    deadline = s.clock.now + BitVec.ofNat 32 s.tables.limits.powerTimeout →
    (r = .tripped ∨ y.faultCode ≠ 0 → s.DriveChanged t i { e with
      power := .fault, fault := some (.trip (if y.faultCode = 0 then 255 else y.faultCode.toNat)) } rest ns) ∧
    (y.faultCode = 0 →
      (r = .off → s.DriveChanged t i { e with power := .off } rest ns) ∧
      (r = .starting → s.heldOff i = false →
        s.DriveChanged t i { e with power := .poweringUp, deadline := some deadline } rest ns) ∧
      (r = .starting → s.heldOff i = true →
        s.DriveChanged t i { e with
          power := .poweringDown, deadline := some deadline, pending := some ⟨.powerOff, s.clock.now, .poweringUp, false⟩ } rest ns) ∧
      (∀ q, r = .ready → q = (if 0 < y.speed ∨ returning = true then
          { s.pgv.pumps[i] with
            commanded := y.speed, share := powerAt s.tables.pumps[i].prated y.speed, lastCommand := s.clock.now }
          else rest) →
        (s.heldOff i = false → s.DriveChanged t i { e with power := .on } q ns) ∧
        (s.heldOff i = true → s.DriveChanged t i { e with
          power := .poweringDown, pending := some ⟨.powerOff, s.clock.now, .on, false⟩ } q ns)) ∧
      (r = .stopping → s.DriveChanged t i { e with power := .poweringDown, deadline := some deadline } rest ns) ∧
      (r = .underLocal → s.DriveChanged t i { e with power := .underLocal }
        { s.pgv.pumps[i] with commanded := 0, share := powerAt s.tables.pumps[i].prated y.speed } ns))

/-- The six checks of a commit, as conditions on the tables (R79, R190). -/
def Tables.Committable (t : Tables) : Prop :=
  (∀ g : Group, ∃ n : Slot, t.slots[n] = some g) ∧
  (∀ (m n : Slot) (g h : Group), m < n → t.slots[m] = some g → t.slots[n] = some h → 20 ≤ g.val → 20 ≤ h.val →
    (g.val < 24 ↔ h.val < 24) → 3 ≤ n.val - m.val ∧ 3 ≤ 40 - (n.val - m.val)) ∧
  (t.low.ws < t.low.wf ∧ t.mid.ws < t.mid.wf ∧ t.tall.ws < t.tall.wf) ∧
  (∀ i : Pump, t.pumps[i].mr ≤ t.pumps[i].ps) ∧
  t.limits.startLevel ≤ 15360 ∧ 1 ≤ t.limits.resumeLevel ∧ t.limits.resumeLevel ≤ 15360

/-! ## Cue store -/

/-- The first law (R39): free count plus listed records is 4,096. -/
def State.PoolLaw (s : State) : Prop := s.cst.free + listedCues s.cst.lists = Config.poolSize

/-! ## Playout -/

/-- The third law (R21): at most 64 blocks of 1 to 240 frames, not overlapping, in increasing positions, each ending after the
show position. -/
def Plu.AudioLaw (p : Plu) : Prop :=
  p.queue.length ≤ Config.audioBlocks ∧
  p.queue.Pairwise (fun a b => a.endPos ≤ b.position) ∧
  ∀ b ∈ p.queue, p.position < b.endPos ∧ 1 ≤ b.frames.length ∧ b.frames.length ≤ Config.blockFrames

/-- The show states in which blocks are taken (R23). -/
def ShowState.takesBlocks : ShowState → Bool
  | .armed | .running | .hold => true
  | .unconfigured | .idle | .fading => false

/-- In IDLE, UNCONFIGURED and FADING the queue is empty (R21). -/
def State.QuietLaw (s : State) : Prop := s.seq.showState.takesBlocks = false → s.plu.queue = []

/-! ## Governor and drives -/

/-- One pump's C and share under the fifth law (R97). -/
def State.ShareLaw (s : State) (i : Pump) : Prop :=
  s.pgv.pumps[i].share = shareFor s.tables.pumps[i].prated s.dlc[i] s.pgv.pumps[i].commanded ∧
  (s.dlc[i].governed = false → s.pgv.pumps[i].commanded = 0)

/-- The fifth law (R97): the ledger total is the sum of the shares, each set from its drive record. -/
def State.LedgerLaw (s : State) : Prop :=
  s.pgv.total = ledgerTotal s.pgv.pumps ∧ ∀ i : Pump, s.ShareLaw i

/-- The budget excess flag is set exactly while the ledger total exceeds the budget (R112). -/
def State.ExcessLaw (s : State) : Prop := s.pgv.excess = true ↔ s.pgv.budget < s.pgv.total

/-- The seventh law (R103): every allowed speed is at most the pump's peak speed. -/
def State.AllowedLaw (s : State) : Prop := ∀ i : Pump, s.pgv.pumps[i].allowed ≤ s.tables.pumps[i].ps

/-- The eleventh law (R120): an ABSENT drive has no pending command and three misses. -/
def DriveRecord.AbsentLaw (d : DriveRecord) : Prop := d.present = false → d.pending = none ∧ d.misses = 3

/-- A drive record under R119 and R134: a fault cause is present exactly while the power state is FAULT, and CLEAR, with prior
state FAULT, is what is pending exactly there. -/
def DriveRecord.FaultLaw (d : DriveRecord) : Prop :=
  (d.fault.isSome = true ↔ d.power = .fault) ∧
  ∀ p, d.pending = some p → (p.command = .clear ↔ d.power = .fault) ∧ (p.prior = .fault ↔ d.power = .fault)

/-! ## Ownership -/

/-- The records that hold a claim (R59). -/
def claimsIn (records : Vector Ownership 336) : Nat := (records.toList.filter fun o => o.claim.isSome).length

/-- The eighth law (R59), with the claim count it speaks of: no channel has both a claim and a lockout, the claim count is the
number of claims, and it is at most 64. -/
def Cha.OwnershipLaw (x : Cha) : Prop :=
  (∀ c : Channel, x.records[c].claim.isSome = true → x.records[c].lockout = none) ∧
  x.claimCount = claimsIn x.records ∧ x.claimCount ≤ Config.claimLimit

/-! ## Ports -/

/-- The tenth law (R181): at most 32 notices, no two with the same key. -/
def MasterPort.NoticeLaw (m : MasterPort) : Prop :=
  m.notices.length ≤ Config.noticePlaces ∧ m.notices.Pairwise (fun a b => a.sameKey b = false)

/-- The capacities of R171 and R174: queues within their places, and at most 16 requests and responses outstanding. -/
def MasterPort.CapacityLaw (m : MasterPort) : Prop :=
  m.urgent.length ≤ Config.urgentPlaces ∧ m.bulk.length ≤ Config.bulkPlaces ∧ m.outstanding ≤ Config.outgoingPlaces

/-- The attention output is active exactly while a response or a notice waits (R183). -/
def MasterPort.AttentionLaw (m : MasterPort) : Prop :=
  m.attention = true ↔ m.outgoing ≠ [] ∨ m.notices ≠ []

/-! ## Plant monitor -/

/-- The emergency stop state is ACTIVE while the line state is ACTIVE or the latch is set, and CLEAR while neither holds
(R163). -/
def Plm.StopLaw (p : Plm) : Prop := p.stop.isSome = (p.lineActive || p.latch)

/-- The part of the ninth law that speaks of a state (R169). -/
def State.StoppedLaw (s : State) : Prop :=
  s.estop = true →
    (s.seq.showState = .idle ∨ s.seq.showState = .unconfigured) ∧ ∀ c : Channel, s.cha.records[c].claim = none

/-- The length of a stop (R168): local time since the entry while it has not reached 4,294,967,295 ms, at which it is held. -/
def State.StopLengthLaw (s : State) : Prop :=
  ∀ e, s.plm.stop = some e →
    e.length ≤ 4294967295 ∧ (e.length < 4294967295 → e.length = (s.clock.now - e.time).toNat)

/-! ## Sequencer and configuration -/

/-- Which fields of the sequencer record are present in which show state (R4), and UNCONFIGURED exactly while no committed
configuration is VALID (R18, R187). -/
def State.RecordLaw (s : State) : Prop :=
  (s.seq.holdCause.isSome = true ↔ s.seq.showState = .hold) ∧
  (s.seq.startDeadline.isSome = true → s.seq.showState = .armed) ∧
  (s.seq.fadeEnd.isSome = true ↔ s.seq.showState = .fading) ∧
  (s.seq.fadeCause.isSome = true ↔ s.seq.showState = .fading) ∧
  (s.seq.showState = .idle ∨ s.seq.showState = .unconfigured → s.seq.endPosition = none ∧ s.seq.silent = false) ∧
  (s.seq.showState = .unconfigured ↔ s.cfg.state ≠ .valid)

/-- A pump entry within the ranges of R93 and R189. -/
def PumpEntry.InRange (e : PumpEntry) : Prop :=
  e.prated ≤ 250000 ∧ e.ps ≤ 1000 ∧ 50 ≤ e.mr ∧ e.mr ≤ 500 ∧ 10 ≤ e.ru ∧ e.ru ≤ 1000 ∧ 10 ≤ e.rd ∧ e.rd ≤ 1000 ∧
    10 ≤ e.erd ∧ e.erd ≤ 1000 ∧ e.mo ≤ 32000 ∧ e.rest ≤ 1000

/-- A wind curve within the ranges of R94. -/
def WindCurve.InRange (k : WindCurve) : Prop := k.ws ≤ 600 ∧ k.wf ≤ 600 ∧ k.floor ≤ 1000

/-- The governor's tables within their ranges (R93, R94, R189). -/
def Tables.InRange (t : Tables) : Prop :=
  (∀ i : Pump, t.pumps[i].InRange) ∧ t.low.InRange ∧ t.mid.InRange ∧ t.tall.InRange

/-- The tables in use and the held tables are within their ranges: a write out of range is refused (R189). -/
def State.TablesLaw (s : State) : Prop := s.tables.InRange ∧ s.cfg.held.InRange

/-- While RESET_N is held every block holds the cold reset values of its chapter, so it does at the release (R194); only the raw level
of ESTOP_N and the queue of waiting commands may differ from the state right after a cold reset. -/
def State.HeldLaw (s : State) : Prop := s.clock.released = false → s = s.coldReset

/-- A safe state: every law of the device that speaks of one state. -/
def State.Safe (s : State) : Prop :=
  s.PoolLaw ∧ s.CueLaw ∧ s.plu.AudioLaw ∧ s.QuietLaw ∧ s.LedgerLaw ∧ s.AllowedLaw ∧ (∀ i : Pump, s.dlc[i].AbsentLaw ∧ s.dlc[i].FaultLaw) ∧
  s.cha.OwnershipLaw ∧ (∀ p : Port, (s.port p).NoticeLaw ∧ (s.port p).CapacityLaw ∧ (s.port p).AttentionLaw) ∧
  s.plm.StopLaw ∧ s.StoppedLaw ∧ s.StopLengthLaw ∧ s.RecordLaw ∧ s.TablesLaw ∧ s.ExcessLaw ∧ s.HeldLaw

end Sys2Proof.Machine
end

