-- ==== Sys2Proof/Certificates/Slice0/Obligations.lean ====
section
/-! DEFINITION. The statements for the provers, in the terms of Sys2Proof/Safety.lean. -/

open Sys2Proof Sys2Proof.Machine

/-! ## The machine as a whole -/

/-- A step runs the command at the front of the queue on the state that holds the queue's rest; on an empty queue it idles, which
is the model's choice (notes/assumptions/1). -/
def Obligations.StepRunsTheFrontCommand : Prop :=
  (∀ (c : Instr) (rest : List Instr) (s : State), step { s with pending := c :: rest } = exec c { s with pending := rest }) ∧
  ∀ s : State, s.pending = [] → step s = .next s

/-- Every command completes in every state, and writes only the parts that its row of `writes` lists: the frame of every command
(00_scope, Functional blocks). That a command which cannot apply completes with nothing changed is the model's choice
(notes/assumptions/1); that a slot expiry moves the clock and the ages, that an output frame event settles what SEQ was handed
before, and that a slot expiry marks the command it builds into a frame rest on its readings (notes/assumptions/4, 5 and 18). -/
def Obligations.EveryCommandWritesOnlyItsParts : Prop :=
  ∀ (c : Instr) (s : State), ∃ t, exec c s = .next t ∧ s.Within (writes c) t

/-- COLD_RESET, in every state, gives every block the values its chapter states for it, the transaction in progress on a port
abandoned and the tables held and in use the defaults, entry by entry (R19, R37, R57, R77, R92, R117, R120, R154, R170, R186,
R187, R189); and those are the values of the state the model starts from. What the spec leaves open here is the model's choice:
the level of the ESTOP_N pin and the queue of waiting commands stay, the output frame is silent, no bytes have been shifted out,
the release of RESET_N is awaited (notes/assumptions/2), and SEQ has been handed nothing (notes/assumptions/5). -/
def Obligations.ColdResetGivesTheChapterValues : Prop :=
  ∀ s : State, ∃ t, exec .coldReset s = .next t ∧ t.pending = s.pending ∧ t.plm.rawLow = s.plm.rawLow ∧
    ∀ u ∈ [t, State.reset],
      (u.seq.showState = .unconfigured ∧ u.seq.idleCause = .cold ∧ u.seq.resetOrigin = .cold ∧ u.seq.startDeadline = none ∧
        u.seq.endPosition = none ∧ u.seq.fadeEnd = none ∧ u.seq.fadeCause = none ∧ u.seq.holdCause = none ∧
        u.seq.silent = false ∧ u.seq.holdAsked = false ∧ u.seq.endReached = false ∧ u.seq.fadeReached = false) ∧
      (u.plu.position = 0 ∧ u.plu.queue = [] ∧ u.plu.starvation = 0 ∧ u.plu.volume = 1000 ∧ u.plu.lowMarkArmed = true ∧
        u.plu.output = ⟨0, 0⟩) ∧
      ((∀ c : Channel, u.cst.lists[c] = [] ∧ u.cha.records[c] = ⟨none, none, none⟩ ∧
          u.cst.shown[c] = if c.val < 144 then .level 0 else .colour ⟨0, 0, 0, 0, 0⟩) ∧
        u.cst.free = 4096 ∧ u.cst.skipped = 0 ∧ u.cst.poolLowArmed = true ∧ u.cha.claimCount = 0) ∧
      (u.fsc.pointer = 0 ∧ u.fsc.management = 15 ∧ (∀ l : Line, u.fsc.line l = .free) ∧ ∀ g : Group, u.fsc.overruns[g] = 0) ∧
      ((∀ i : Pump, u.pgv.pumps[i] = ⟨1000, 0, 0, 0⟩ ∧ u.dlc[i] = ⟨false, .off, none, none, none, 3, none, 0⟩) ∧
        u.pgv.total = 0 ∧ u.pgv.budget = 0 ∧ u.pgv.excess = false) ∧
      ((∀ j : Jet, u.out.valves[j] = 0) ∧ ∀ f : Fixture, u.out.lamps[f] = ⟨0, 0, 0, 0⟩) ∧
      (u.plm.windSpeed = none ∧ u.plm.windDeadline = none ∧ u.plm.windAge = 0 ∧ u.plm.basinLevel = none ∧
        u.plm.levelDeadline = none ∧ u.plm.levelAge = 0 ∧ u.plm.lowWater = false ∧ u.plm.lineActive = false ∧
        u.plm.debounce = none ∧ u.plm.latch = false ∧ u.plm.stop = none) ∧
      (u.cfg.state = .defaults ∧ u.clock = ⟨0, 0, false⟩) ∧
      (∀ x ∈ [u.tables, u.cfg.held],
        (∀ i : Pump, x.pumps[i] = ⟨55000, 1000, 250, 100, 100, 250, .none, 0, 0⟩) ∧
        (∀ j : Jet, x.jets[j] = ⟨.proportional, none, 0⟩) ∧
        (∀ f : Fixture, x.fixtures[f] = ⟨.rgbw, .direct, none, 26, ⟨0, 0, 0, 255, 102⟩, ⟨0, 0, 0, 0, 0⟩⟩) ∧
        x.low = ⟨100, 200, 600⟩ ∧ x.mid = ⟨80, 160, 450⟩ ∧ x.tall = ⟨60, 120, 350⟩ ∧
        x.slots.toList =
          [some 0, some 20, some 1, some 24, some 2, some 16, some 3, some 21, some 4, some 25, some 5, some 17, some 6,
            some 22, some 7, some 26, some 8, some 18, some 9, some 23, some 10, some 27, some 11, some 19, some 12, none,
            some 13, none, some 14, none, some 15] ++ List.replicate 9 none ∧
        x.limits =
          { startLevel := 9600, resumeLevel := 9600, lowMark := 4800, starveGrace := 24000, startTimeout := 5000,
            fadeTime := 3000, lease := 2000, pumpRejoin := 1000, jetRejoin := 1000, fixtureRejoin := 500, air := 20,
            windStale := 10000, levelStale := 10000, lowLevelTrip := 300, powerTimeout := 5000, lowPool := 256 }) ∧
      ∀ p : Port, (u.port p).urgent = [] ∧ (u.port p).bulk = [] ∧ (u.port p).executing = none ∧ (u.port p).outgoing = [] ∧
        (u.port p).notices = [] ∧ (u.port p).dropped = false ∧ (u.port p).admission = .none ∧ (u.port p).admissionTag = 0 ∧
        (u.port p).errorCount = 0 ∧ (u.port p).attention = false ∧ (u.port p).transaction = none ∧ (u.port p).shiftedOut = []

/-- The state after cold reset is safe: every law of the device that speaks of one state holds in it. -/
def Obligations.ResetStateIsSafe : Prop := State.reset.Safe

/-! ## Master ports -/

/-- TRANSACTION_START on a port with no transaction in progress fixes the six status bytes and the oldest response, whole, with
its check, whose algorithm gives 29B1h over the nine bytes 31h to 39h (R172, R184). That it does nothing while RESET_N is held is
the model's reading of R194 (notes/assumptions/32). -/
def Obligations.TransactionStartFixesWhatIsShiftedOut : Prop :=
  crc [0x31, 0x32, 0x33, 0x34, 0x35, 0x36, 0x37, 0x38, 0x39] = 0x29B1 ∧
  ∀ (s : State) (p : Port), (s.clock.released = false → exec (.transactionStart p) s = .next s) ∧
    (s.clock.released = true → (s.port p).transaction = none →
    ∃ tr, exec (.transactionStart p) s = .next (s.withPort p { s.port p with transaction := some tr }) ∧
      tr.header =
        [BitVec.ofNat 8 ((if (s.port p).dropped then 1 else 0) + (if s.estop then 2 else 0) +
            (if s.cfg.state = .valid then 4 else 0)),
          BitVec.ofNat 8 (s.port p).outgoing.length, BitVec.ofNat 8 (s.port p).notices.length,
          BitVec.ofNat 8 (s.port p).admission.code, (s.port p).admissionTag, BitVec.ofNat 8 s.seq.showState.code] ∧
      ((s.port p).outgoing = [] → tr.response = none) ∧
      ∀ r rs, (s.port p).outgoing = r :: rs →
        ∃ check : BitVec 16,
          check = crc ([r.kind, r.tag, BitVec.ofNat 8 r.result.code] ++ bytes 2 r.body.length ++ r.body) ∧
          tr.response = some ([r.kind, r.tag, BitVec.ofNat 8 r.result.code] ++ bytes 2 r.body.length ++ r.body ++
            bytes 2 check.toNat))

/-- TRANSACTION_END with a frame laid out as R184 says, any fill after it: the port has shifted out what it fixed and then FFh, a
fixed response that was clocked out whole leaves the outgoing queue, and then the request joins the tail of its class's queue, or
is refused for want of room (R172–R174). That as many bytes are clocked out as in is the model's reading
(notes/assumptions/10). -/
def Obligations.AWellFormedFrameIsAdmittedOrRefusedForRoom : Prop :=
  ∀ (s : State) (p : Port) (tr : Transaction) (kind tag : Byte) (body fill : List Byte),
    (s.port p).transaction = some tr → kind ≠ 0 → body.length ≤ 1536 →
    ∀ covered frame : List Byte, covered = [kind, tag] ++ bytes 2 body.length ++ body →
      frame = covered ++ bytes 2 (crc covered).toNat →
      ∀ left : List Response,
        left = (if ∃ r, tr.response = some r ∧ tr.header.length + r.length ≤ frame.length + fill.length then
          (s.port p).outgoing.tail else (s.port p).outgoing) →
        ∃ m, exec (.transactionEnd p (frame ++ fill)) s = .next (s.withPort p m) ∧
          m.outgoing = left ∧ m.transaction = none ∧ m.executing = (s.port p).executing ∧ m.notices = (s.port p).notices ∧
          m.dropped = (s.port p).dropped ∧ m.errorCount = (s.port p).errorCount ∧ m.admissionTag = tag ∧
          m.shiftedOut = (tr.header ++ tr.response.getD [] ++ List.replicate (frame.length + fill.length) 0xFF).take
            (frame.length + fill.length) ∧
          let sum := left.length + (s.port p).urgent.length + (s.port p).bulk.length +
            (if (s.port p).executing.isSome then 1 else 0)
          (classOf kind = .urgent → (s.port p).urgent.length < 4 → sum < 16 →
            m.urgent = (s.port p).urgent ++ [⟨kind, tag, body⟩] ∧ m.bulk = (s.port p).bulk ∧ m.admission = .admitted) ∧
          (classOf kind = .bulk → (s.port p).bulk.length < 8 → sum < 16 →
            m.urgent = (s.port p).urgent ∧ m.bulk = (s.port p).bulk ++ [⟨kind, tag, body⟩] ∧ m.admission = .admitted) ∧
          ((classOf kind = .urgent ∧ 4 ≤ (s.port p).urgent.length) ∨ (classOf kind = .bulk ∧ 8 ≤ (s.port p).bulk.length) ∨
              16 ≤ sum →
            m.urgent = (s.port p).urgent ∧ m.bulk = (s.port p).bulk ∧ m.admission = .refusedFull)

/-- TRANSACTION_END with bytes that are no well-formed frame: a fixed response that was clocked out whole leaves the outgoing
queue, and the attention output follows; beyond that a read leaves the port as it was, and an ABORTED or BAD_FRAME frame sets the
admission record and adds one to the error count, which stays at 255; nothing is admitted (R172, R173). That as many bytes are
clocked out as in is the model's reading (notes/assumptions/10). -/
def Obligations.FaultyFramesAreCountedAndNotExecuted : Prop :=
  ∀ (s : State) (p : Port) (tr : Transaction) (bs : List Byte), (s.port p).transaction = some tr →
    ∀ (Collected : Prop) (ended left : MasterPort) (faulty : Admission → MasterPort),
      (Collected ↔ ∃ r, tr.response = some r ∧ tr.header.length + r.length ≤ bs.length) →
      ended = { s.port p with
        transaction := none
        shiftedOut := (tr.header ++ tr.response.getD [] ++ List.replicate bs.length 0xFF).take bs.length } →
      (¬ Collected → left = ended) →
      (Collected → left = { ended with
        outgoing := (s.port p).outgoing.tail
        attention := !(s.port p).outgoing.tail.isEmpty || !(s.port p).notices.isEmpty }) →
      (∀ a, faulty a = { left with
        admission := a
        admissionTag := (if 2 ≤ bs.length then bs.getD 1 0 else 0)
        errorCount := min ((s.port p).errorCount + 1) 255 }) →
      (bs = [] ∨ bs.head? = some 0 → exec (.transactionEnd p bs) s = .next (s.withPort p left)) ∧
      (bs ≠ [] → bs.head? ≠ some 0 →
        (bs.length < 4 → exec (.transactionEnd p bs) s = .next (s.withPort p (faulty .aborted))) ∧
        (4 ≤ bs.length → 1536 < field bs 2 2 → exec (.transactionEnd p bs) s = .next (s.withPort p (faulty .badFrame))) ∧
        (4 ≤ bs.length → field bs 2 2 ≤ 1536 → bs.length < 4 + field bs 2 2 + 2 →
          exec (.transactionEnd p bs) s = .next (s.withPort p (faulty .aborted))) ∧
        (4 + field bs 2 2 + 2 ≤ bs.length → field bs 2 2 ≤ 1536 →
          (crc (bs.take (4 + field bs 2 2))).toNat ≠ field bs (4 + field bs 2 2) 2 →
          exec (.transactionEnd p bs) s = .next (s.withPort p (faulty .badFrame))))

/-- The catalogue of R176 by kind code, with each kind's class and ports, and the bulk class of a kind it does not name (R174).
REQUEST_DISPATCH on a port with no request in execution takes the oldest urgent request, or the oldest bulk one when no
urgent one waits; it answers an unknown kind BAD_ARGUMENT and a kind not permitted on the port WRONG_PORT, and hands over any
other (R175). Answering places one response with the request's kind and tag at the tail of the requesting port's outgoing
queue, ends the execution, drives the attention output active and touches nothing else (R175, R177, R183). -/
def Obligations.RequestsAreDispatchedInOrderAndAnsweredOnce : Prop :=
  ((∀ k ∈ [0x01#8, 0x02#8, 0x03#8, 0x04#8], catalogue k = some ⟨.urgent, true, true, true⟩) ∧
    (∀ k ∈ [0x10#8, 0x11#8, 0x18#8, 0x19#8, 0x1A#8, 0x1B#8], catalogue k = some ⟨.bulk, true, false, false⟩) ∧
    (∀ k ∈ [0x12#8, 0x13#8, 0x14#8, 0x1C#8], catalogue k = some ⟨.urgent, true, false, true⟩) ∧
    (∀ k ∈ [0x20#8, 0x21#8, 0x22#8], catalogue k = some ⟨.urgent, false, false, true⟩) ∧
    (∀ k ∈ [0x28#8, 0x29#8, 0x30#8, 0x31#8, 0x32#8, 0x33#8, 0x34#8, 0x35#8, 0x36#8],
      catalogue k = some ⟨.urgent, false, true, false⟩) ∧
    (∀ k ∈ [0x40#8, 0x41#8, 0x42#8, 0x43#8], catalogue k = some ⟨.bulk, false, true, false⟩) ∧
    (∀ k ∉ [0x01#8, 0x02#8, 0x03#8, 0x04#8, 0x10#8, 0x11#8, 0x18#8, 0x19#8, 0x1A#8, 0x1B#8, 0x12#8, 0x13#8, 0x14#8, 0x1C#8,
        0x20#8, 0x21#8, 0x22#8, 0x28#8, 0x29#8, 0x30#8, 0x31#8, 0x32#8, 0x33#8, 0x34#8, 0x35#8, 0x36#8, 0x40#8, 0x41#8,
        0x42#8, 0x43#8], catalogue k = none ∧ classOf k = .bulk) ∧
    ∀ k row, catalogue k = some row → classOf k = row.cls ∧ row.permits .showPort = row.onShow ∧
      row.permits .plantPort = row.onPlant ∧ row.permits .consolePort = row.onConsole) ∧
  (∀ (s : State) (p : Port) (q : Request) (m : MasterPort), (s.port p).executing = none →
    (∃ qs, (s.port p).urgent = q :: qs ∧ m = { s.port p with urgent := qs }) ∨
      (∃ qs, (s.port p).urgent = [] ∧ (s.port p).bulk = q :: qs ∧ m = { s.port p with bulk := qs }) →
    (catalogue q.kind = none → exec (.requestDispatch p) s = .next (s.withPort p { m with
      outgoing := m.outgoing ++ [⟨q.kind, q.tag, .badArgument, []⟩], attention := true })) ∧
    ∀ k, catalogue q.kind = some k →
      (k.permits p = false → exec (.requestDispatch p) s = .next (s.withPort p { m with
        outgoing := m.outgoing ++ [⟨q.kind, q.tag, .wrongPort, []⟩], attention := true })) ∧
      (k.permits p = true →
        exec (.requestDispatch p) s = .next (s.withPort p { m with executing := some ⟨q, s.clock.now⟩ }))) ∧
  ∀ (s : State) (p : Port) (kind tag : Byte) (body reply : List Byte) (r : Result),
    (s.answer p ⟨kind, tag, body⟩ r reply).port p = { s.port p with
      executing := none
      outgoing := (s.port p).outgoing ++ [⟨kind, tag, r, reply⟩]
      attention := true } ∧
    s.Within [portPart p] (s.answer p ⟨kind, tag, body⟩ r reply)

/-- STATUS is answered OK with a body of 89 bytes and changes nothing; every field stands at its place in the table of R185, an
absent one as FFh (R178, R185). What a position or lead of 2^32 is reported as is open in the spec, and the model's free value
(notes/assumptions/27). -/
def Obligations.StatusReportsAndChangesNothing : Prop :=
  ∀ (s : State) (p : Port) (tag : Byte) (at_ : Time), (s.port p).executing = some ⟨⟨0x01, tag, []⟩, at_⟩ →
    ∃ reply, Answers (.status p) s p 0x01 tag [] s .ok reply ∧ reply.length = 89 ∧ s.StatusReported p at_ reply ∧
      field reply 0 2 = 0x4820 ∧ field reply 2 1 = s.cfg.state.code ∧ field reply 3 1 = s.seq.showState.code ∧
      (s.plu.position < 4294967296 → field reply 22 4 = s.plu.position) ∧
      (s.pgv.total < 4294967296 → field reply 48 4 = s.pgv.total) ∧
      field reply 74 1 = (if s.estop then 1 else 0) ∧
      field reply 80 4 = at_.toNat ∧
      ((s.port p).notices.length ≤ 32 → field reply 87 1 = (s.port p).notices.length)

/-- READ_CHANNEL and READ_DRIVE are answered OK with bodies of 83 and 38 bytes and change nothing: every field stands at its place in
the tables of R185, an absent one as FFh, the owner, claim, lockout and rejoin, the current output value (R62), the show value, the
cue counts, the ACTIVE cue and the output table entry among them, and every field of the drive record, the allowed and the commanded
speed and the share. A body of another length, a channel above 335 or an index above 15 is answered BAD_ARGUMENT (R179, R180, R185). -/
def Obligations.ReadsReportAndChangeNothing : Prop :=
  ∀ (s : State) (p : Port) (tag : Byte) (body : List Byte),
    (s.InExecution p 0x03 tag body →
      (body.length ≠ 2 ∨ 335 < field body 0 2 → Answers (.readChannel p) s p 0x03 tag body s .badArgument []) ∧
      ∀ c : Channel, body.length = 2 → field body 0 2 = c.val →
        ∃ reply, Answers (.readChannel p) s p 0x03 tag body s .ok reply ∧ reply.length = 83 ∧ s.ChannelReported c reply) ∧
    (s.InExecution p 0x04 tag body →
      (body.length ≠ 1 ∨ 15 < field body 0 1 → Answers (.readDrive p) s p 0x04 tag body s .badArgument []) ∧
      ∀ i : Pump, body.length = 1 → field body 0 1 = i.val →
        ∃ reply, Answers (.readDrive p) s p 0x04 tag body s .ok reply ∧ reply.length = 38 ∧ s.DriveReported i reply)

/-- NOTICES removes the oldest notices, up to sixteen of them, answers with their number and the removed entries in list order,
and clears the notices-dropped flag (R182–R184). -/
def Obligations.NoticesRemovesTheOldest : Prop :=
  ∀ (s : State) (p : Port) (tag : Byte), s.InExecution p 0x02 tag [] →
    ∃ m, Answers (.notices p) s p 0x02 tag [] (s.withPort p m) .ok
        (BitVec.ofNat 8 (min 16 (s.port p).notices.length) :: ((s.port p).notices.take 16).flatMap fun n =>
          bytes 1 n.kind.code ++ bytes 2 n.subject ++ bytes 4 n.detail ++ bytes 4 n.time.toNat) ∧
      m.notices = (s.port p).notices.drop 16 ∧ m.dropped = false ∧ m.urgent = (s.port p).urgent ∧ m.bulk = (s.port p).bulk ∧
      m.executing = (s.port p).executing ∧ m.outgoing = (s.port p).outgoing ∧ m.admission = (s.port p).admission ∧
      m.admissionTag = (s.port p).admissionTag ∧ m.errorCount = (s.port p).errorCount ∧
      m.transaction = (s.port p).transaction

/-- Requests that are refused change nothing: one whose chapter specifies no body, sent with one (R176); ARM by the order of its
tests (R6); and malformed, ill-timed or unowned AUDIO_BLOCK, CUE_LOAD, CUE_CLEAR, CLAIM, SET, RELEASE, LOCKOUT, UNLOCK,
DRIVE_POWER and DRIVE_CLEAR requests (R23, R41, R47, R63, R66, R67, R69, R72, R132, R134), those an emergency stop refuses among
them. That either row of DRIVE_POWER answers a malformed body, and that BAD_ARGUMENT then has an empty one, as for DRIVE_CLEAR and
ESTOP_RESET, is the model's choice (notes/assumptions/9); the positions in the body of an AUDIO_BLOCK answer rest on notes/assumptions/27 where they reach 2^32. -/
def Obligations.RefusedRequestsChangeNothing : Prop :=
  ∀ (s : State) (tag : Byte) (body : List Byte),
    (body ≠ [] → ∀ (p : Port), ∀ e ∈ [(Instr.status p, p, 0x01#8), (.notices p, p, 0x02#8), (.start, .showPort, 0x11#8),
        (.pause p, p, 0x12#8), (.resume p, p, 0x13#8), (.stop p, p, 0x14#8), (.audioFlush, .showPort, 0x1B#8),
        (.estop, .plantPort, 0x30#8), (.estopReset, .plantPort, 0x31#8), (.configCommit, .plantPort, 0x42#8),
        (.restart, .plantPort, 0x43#8)],
      s.InExecution e.2.1 e.2.2 tag body → Answers e.1 s e.2.1 e.2.2 tag body s .badArgument []) ∧
    (s.InExecution .showPort 0x10 tag body →
      (body.length ≠ 9 → Answers .arm s .showPort 0x10 tag body s .badArgument []) ∧
      (body.length = 9 →
        (s.estop = true → Answers .arm s .showPort 0x10 tag body s .estopActive []) ∧
        (s.estop = false →
          (s.seq.showState = .unconfigured → Answers .arm s .showPort 0x10 tag body s .notConfigured []) ∧
          (s.seq.showState ≠ .unconfigured → s.seq.showState ≠ .idle →
            Answers .arm s .showPort 0x10 tag body s .busyState []) ∧
          (s.seq.showState = .idle → field body 4 4 ≠ 0xFFFFFFFF →
            min (field body 4 4) 86400000 ≤ min (field body 0 4) 86399999 →
            Answers .arm s .showPort 0x10 tag body s .badArgument [])))) ∧
    (s.InExecution .showPort 0x1A tag body →
      body.length < 6 ∨ field body 4 2 = 0 ∨ 240 < field body 4 2 ∨ body.length ≠ 6 + 6 * field body 4 2 ∨
        4294967296 < field body 0 4 + field body 4 2 →
      Answers .audioBlock s .showPort 0x1A tag body s .badArgument s.plu.positionBody) ∧
    (s.InExecution .showPort 0x18 tag body →
      (body.length = 0 ∨ body.length % 16 ≠ 0 ∨ 1024 < body.length →
        Answers .cueLoad s .showPort 0x18 tag body s .badArgument []) ∧
      (body.length ≠ 0 → body.length % 16 = 0 → body.length ≤ 1024 →
        (s.estop = true → Answers .cueLoad s .showPort 0x18 tag body s .estopActive []) ∧
        (s.estop = false → s.seq.showState = .unconfigured ∨ s.seq.showState = .fading →
          Answers .cueLoad s .showPort 0x18 tag body s .busyState []))) ∧
    (s.InExecution .showPort 0x19 tag body →
      (body.length ≠ 8 ∨ 335 < field body 2 2 ∨ field body 2 2 < field body 0 2 →
        Answers .cueClear s .showPort 0x19 tag body s .badArgument []) ∧
      (body.length = 8 → field body 2 2 ≤ 335 → field body 0 2 ≤ field body 2 2 →
        (s.estop = true → Answers .cueClear s .showPort 0x19 tag body s .estopActive []) ∧
        (s.estop = false → s.seq.showState = .unconfigured ∨ s.seq.showState = .fading →
          Answers .cueClear s .showPort 0x19 tag body s .busyState []))) ∧
    (s.InExecution .consolePort 0x20 tag body →
      (body.length = 0 ∨ body.length % 2 = 1 ∨ 128 < body.length →
        Answers .claim s .consolePort 0x20 tag body s .badArgument []) ∧
      (body.length ≠ 0 → body.length % 2 = 0 → body.length ≤ 128 → s.estop = true →
        Answers .claim s .consolePort 0x20 tag body s .estopActive [])) ∧
    (s.InExecution .consolePort 0x21 tag body →
      (body.length ≠ 11 ∨ 335 < field body 0 2 → Answers .set s .consolePort 0x21 tag body s .badArgument []) ∧
      ∀ c : Channel, body.length = 11 → field body 0 2 = c.val →
        (s.estop = true → Answers .set s .consolePort 0x21 tag body s .estopActive []) ∧
        (s.estop = false → s.cha.records[c].lockout ≠ none →
          Answers .set s .consolePort 0x21 tag body s .channelLocked []) ∧
        (s.estop = false → s.cha.records[c].lockout = none → s.cha.records[c].claim = none →
          Answers .set s .consolePort 0x21 tag body s .notOwner [])) ∧
    (s.InExecution .consolePort 0x22 tag body → body.length % 2 = 1 ∨ 128 < body.length →
      Answers .release s .consolePort 0x22 tag body s .badArgument []) ∧
    (s.InExecution .plantPort 0x28 tag body → body.length < 9 ∨ 135 < body.length ∨ body.length % 2 = 0 →
      Answers .lockout s .plantPort 0x28 tag body s .badArgument []) ∧
    (s.InExecution .plantPort 0x29 tag body → body.length = 0 ∨ body.length % 2 = 1 ∨ 128 < body.length →
      Answers .unlock s .plantPort 0x29 tag body s .badArgument []) ∧
    (s.InExecution .plantPort 0x32 tag body → body.length ≠ 2 ∨ 15 < field body 0 1 ∨ 1 < field body 1 1 →
      ∀ c ∈ [Instr.drivePowerOn, .drivePowerOff], Answers c s .plantPort 0x32 tag body s .badArgument []) ∧
    (s.InExecution .plantPort 0x33 tag body → body.length ≠ 1 ∨ 15 < field body 0 1 →
      Answers .driveClear s .plantPort 0x33 tag body s .badArgument [])

/-- The tenth law (R181), the capacities of R171 and R174 and the attention output of R183 are kept by every step on every
port. -/
def Obligations.EveryStepKeepsThePortLaws : Prop :=
  ∀ (s t : State) (p : Port), step s = .next t →
    ((s.port p).NoticeLaw → (t.port p).NoticeLaw) ∧ ((s.port p).CapacityLaw → (t.port p).CapacityLaw) ∧
    ((s.port p).AttentionLaw → (t.port p).AttentionLaw)

/-! ## Show sequencer -/

/-- An accepted ARM positions the show: position, queue and starvation count, end position, silent flag, show state, and the
pending POWER_ON of every PRESENT drive in OFF that no lockout holds off (R6, R7, R28, R135). -/
def Obligations.ArmPositionsTheShow : Prop :=
  ∀ (s : State) (tag : Byte) (body : List Byte) (start : Nat) (endMs : Option Nat),
    s.InExecution .showPort 0x10 tag body → body.length = 9 → s.estop = false → s.seq.showState = .idle →
    start = min (field body 0 4) 86399999 →
    endMs = (if field body 4 4 = 0xFFFFFFFF then none else some (min (field body 4 4) 86400000)) →
    (∀ e, endMs = some e → start < e) →
    ∃ t, Answers .arm s .showPort 0x10 tag body t .ok [] ∧
      t.plu = { s.plu with position := start * 48, queue := [], starvation := 0 } ∧
      t.seq.showState = .armed ∧ t.seq.endPosition = endMs.map (· * 48) ∧ t.seq.silent = decide (field body 8 1 ≠ 0) ∧
      t.seq.startDeadline = none ∧ t.seq.idleCause = s.seq.idleCause ∧ t.seq.resetOrigin = s.seq.resetOrigin ∧
      ∀ i : Pump, t.dlc[i] = if s.dlc[i].present = true ∧ s.dlc[i].power = .off ∧ s.heldOff i = false then
          { s.dlc[i] with power := .poweringUp, pending := some ⟨.powerOn, s.clock.now, .off, false⟩ }
        else s.dlc[i]

/-- START in ARMED runs a silent show, or one whose lead reaches StartLevel, at once; else it sets start-pending with its
deadline; a repeated START changes nothing; in any other state it is refused (R8, R32). -/
def Obligations.StartRunsOrWaitsForMusic : Prop :=
  ∀ (s : State) (tag : Byte), s.InExecution .showPort 0x11 tag [] →
    (s.seq.showState = .armed →
      (s.seq.startDeadline = none →
        (s.seq.silent = true ∨ s.tables.limits.startLevel ≤ s.plu.lead →
          ∃ t, Answers .start s .showPort 0x11 tag [] t .ok [] ∧ t.seq.showState = .running ∧ t.seq.startDeadline = none ∧
            t.seq.endPosition = s.seq.endPosition ∧ t.seq.silent = s.seq.silent ∧ t.plu = { s.plu with starvation := 0 }) ∧
        (s.seq.silent = false → s.plu.lead < s.tables.limits.startLevel →
          Answers .start s .showPort 0x11 tag [] (s.withSeq { s.seq with
            startDeadline := some (s.clock.now + BitVec.ofNat 32 s.tables.limits.startTimeout) }) .ok [])) ∧
      (s.seq.startDeadline ≠ none → Answers .start s .showPort 0x11 tag [] s .ok [])) ∧
    (s.seq.showState ≠ .armed →
      Answers .start s .showPort 0x11 tag [] s (if s.estop then .estopActive else .busyState) [])

/-- PAUSE holds a running or starved show; RESUME runs a paused one when it is silent or its lead reaches ResumeLevel, and else
leaves it starved; both leave the position, and are refused outside RUNNING and HOLD (R11, R12). -/
def Obligations.PauseHoldsAndResumeRuns : Prop :=
  ∀ (s : State) (p : Port) (tag : Byte),
    (s.InExecution p 0x12 tag [] →
      (s.seq.showState = .running ∨ s.seq.showState = .hold →
        ∃ t, Answers (.pause p) s p 0x12 tag [] t .ok [] ∧ t.seq.showState = .hold ∧ t.seq.holdCause = some .paused ∧
          t.seq.endPosition = s.seq.endPosition ∧ t.seq.silent = s.seq.silent ∧ t.plu = s.plu ∧
          (s.seq.showState = .hold → s.seq.holdCause = some .paused → t = s)) ∧
      (s.seq.showState ≠ .running → s.seq.showState ≠ .hold → Answers (.pause p) s p 0x12 tag [] s .busyState [])) ∧
    (s.InExecution p 0x13 tag [] →
      (s.seq.showState = .hold → s.seq.holdCause = some .paused →
        ∃ t, Answers (.resume p) s p 0x13 tag [] t .ok [] ∧
          (s.seq.silent = true ∨ s.tables.limits.resumeLevel ≤ s.plu.lead →
            t.seq.showState = .running ∧ t.seq.holdCause = none ∧ t.plu = { s.plu with starvation := 0 }) ∧
          (s.seq.silent = false → s.plu.lead < s.tables.limits.resumeLevel →
            t.seq.showState = .hold ∧ t.seq.holdCause = some .starved ∧ t.plu = s.plu)) ∧
      (s.seq.showState = .running ∨ (s.seq.showState = .hold ∧ s.seq.holdCause ≠ some .paused) →
        Answers (.resume p) s p 0x13 tag [] s .ok []) ∧
      (s.seq.showState ≠ .running → s.seq.showState ≠ .hold → Answers (.resume p) s p 0x13 tag [] s .busyState []))

/-- STOP in ARMED, RUNNING and HOLD fades the show out; in FADING it brings the fade end to the position; in IDLE it changes
nothing; in UNCONFIGURED it is refused (R14). The model's readings: that the flush makes no low-mark test and so raises no
AUDIO_LOW, the low-mark flag being kept as R37 lists it (notes/assumptions/6), and that CUES_LOW, raised by the cues of the fade,
comes before SHOW_STATE (20). -/
def Obligations.StopFadesTheShow : Prop :=
  ∀ (s : State) (p : Port) (tag : Byte), s.InExecution p 0x14 tag [] →
    (s.seq.showState = .armed ∨ s.seq.showState = .running ∨ s.seq.showState = .hold →
      ∃ t, Answers (.stop p) s p 0x14 tag [] t .ok [] ∧ s.FadesFrom .stopped t) ∧
    (s.seq.showState = .fading → Answers (.stop p) s p 0x14 tag []
      (s.withSeq { s.seq with fadeEnd := some s.plu.position, fadeCause := some .stopped }) .ok []) ∧
    (s.seq.showState = .idle → Answers (.stop p) s p 0x14 tag [] s .ok []) ∧
    (s.seq.showState = .unconfigured → Answers (.stop p) s p 0x14 tag [] s .notConfigured [])

/-- The events of SEQ: the end of the show fades out with cause END (R16); PLU's request for a hold makes the show
HOLD(STARVED) with the position as it is (R13); the fade end makes it IDLE with the fade cause as idle cause (R15); the expiry of
the start deadline ends start-pending and raises START_TIMEOUT with the lead (R10). The model's readings: that what an
output frame event hands SEQ waits for these rows (notes/assumptions/5), that the flush at the end of the show makes no low-mark
test and so raises no AUDIO_LOW, the low-mark flag being kept as R37 lists it (6), and that CUES_LOW comes before
SHOW_STATE (20). -/
def Obligations.SequencerEventsChangeTheShow : Prop :=
  ∀ s : State,
    (s.seq.showState = .running → s.seq.endReached = true →
      ∃ t, exec .endOfShow s = .next t ∧ s.FadesFrom .ended t) ∧
    (s.seq.showState = .running → s.seq.holdAsked = true →
      ∃ t, exec .starvationHold s = .next t ∧ t.seq.showState = .hold ∧ t.seq.holdCause = some .starved ∧
        t.seq.endPosition = s.seq.endPosition ∧ t.seq.silent = s.seq.silent ∧ t.plu = s.plu) ∧
    (∀ cause, s.seq.showState = .fading → s.seq.fadeReached = true → s.seq.fadeCause = some cause →
      ∃ t, exec .fadeEnd s = .next t ∧ t.seq.showState = .idle ∧
        t.seq.idleCause = (match cause with | .stopped => .stopped | .ended => .ended) ∧ t.seq.fadeEnd = none ∧
        t.seq.fadeCause = none ∧ t.seq.endPosition = none ∧ t.seq.silent = false ∧ t.plu = s.plu ∧ t.cst = s.cst) ∧
    (∀ d, s.seq.showState = .armed → s.seq.startDeadline = some d → (s.clock.now - d).toNat < 2147483648 →
      exec .startDeadlineExpiry s =
        .next ((s.withSeq { s.seq with startDeadline := none }).raise .startTimeout 0 s.plu.lead))

/-- The fourth law (R3): the show position changes only by one at an output frame event in RUNNING or FADING, by ARM to a start
time in frames, and by RESTART or cold reset to 0. -/
def Obligations.ThePositionChangesInThreeWays : Prop :=
  ∀ (c : Instr) (s t : State), exec c s = .next t → t.plu.position ≠ s.plu.position →
    (c = .outputFrameEvent ∧ (s.seq.showState = .running ∨ s.seq.showState = .fading) ∧
      t.plu.position = s.plu.position + 1) ∨
    (c = .arm ∧ ∃ ms, ms ≤ 86399999 ∧ t.plu.position = ms * 48) ∨
    ((c = .restart ∨ c = .coldReset) ∧ t.plu.position = 0)

/-- Whatever command changes the show state, the hold cause or the idle cause, each port's list then holds a SHOW_STATE notice
with subject 0 and the show position at the change, or is full with its notices-dropped flag set (R5, R181). Cold reset apart,
which empties the lists. At an output frame event the change is that of an event of SEQ taken before the frame
(notes/assumptions/5), so the position is the one before the advance. -/
def Obligations.ShowStateChangesAreNoticed : Prop :=
  ∀ (c : Instr) (s t : State) (p : Port), c ≠ .coldReset → exec c s = .next t →
    (t.seq.showState ≠ s.seq.showState ∨ t.seq.holdCause ≠ s.seq.holdCause ∨ t.seq.idleCause ≠ s.seq.idleCause) →
    ((t.port p).dropped = true ∧ 32 ≤ (t.port p).notices.length) ∨
    ∃ n ∈ (t.port p).notices, n.kind = .showState ∧ n.subject = 0 ∧
      n.detail = (if c = .outputFrameEvent then s.plu.position else t.plu.position)

/-- Every step keeps the sequencer record as R4 and R18 describe it: which fields are present in which show state, and
UNCONFIGURED exactly while the configuration is not VALID. -/
def Obligations.EveryStepKeepsTheSequencerRecord : Prop :=
  ∀ s t : State, s.RecordLaw → step s = .next t → t.RecordLaw

/-! ## Music playout -/

/-- A well-formed AUDIO_BLOCK in ARMED, RUNNING or HOLD is judged against the expected next position: late, queued, trimmed or
without room; the response carries the expected next position and the lead as they stand after it; and it starts a pending
show, or resumes a starved one, whose level it reaches, with SHOW_STATE and a starvation count of 0, and otherwise leaves the count,
SEQ's record and the ports (R9, R13, R20, R22–R25, R32). Refusals change nothing (R23). What the response carries for a position or
lead of 2^32 is open in the spec, and the model's free value (notes/assumptions/27). -/
def Obligations.AudioBlocksAreJudgedAgainstTheExpectedPosition : Prop :=
  ∀ (s : State) (tag : Byte) (body samples : List Byte) (position count : Nat),
    s.InExecution .showPort 0x1A tag body → 1 ≤ count → count ≤ 240 → samples.length = 6 * count →
    position + count ≤ 4294967296 → body = bytes 4 position ++ bytes 2 count ++ samples →
    (s.estop = true → Answers .audioBlock s .showPort 0x1A tag body s .estopActive s.plu.positionBody) ∧
    (s.estop = false → s.seq.showState.takesBlocks = false →
      Answers .audioBlock s .showPort 0x1A tag body s .busyState s.plu.positionBody) ∧
    (s.estop = false → s.seq.showState.takesBlocks = true →
      (position + count ≤ s.plu.expectedNext →
        Answers .audioBlock s .showPort 0x1A tag body s .late s.plu.positionBody) ∧
      (s.plu.expectedNext < position + count → 64 ≤ s.plu.queue.length →
        Answers .audioBlock s .showPort 0x1A tag body s .queueFull s.plu.positionBody) ∧
      (s.plu.expectedNext < position + count → s.plu.queue.length < 64 →
        ∃ t b, ∃ next lead : BitVec 32,
          Answers .audioBlock s .showPort 0x1A tag body t (if position < s.plu.expectedNext then .trimmed else .ok)
            (bytes 4 next.toNat ++ bytes 4 lead.toNat) ∧
          (position + count < 4294967296 → next.toNat = position + count) ∧
          (position + count - s.plu.position < 4294967296 → lead.toNat = position + count - s.plu.position) ∧
          t.plu.queue = s.plu.queue ++ [b] ∧ t.plu.position = s.plu.position ∧ t.plu.volume = s.plu.volume ∧
          b.position = max position s.plu.expectedNext ∧ b.position + b.frames.length = position + count ∧
          b.frames = (blockFrames body).drop (s.plu.expectedNext - position) ∧
          (∀ runs : Prop, (runs ↔ (s.seq.showState = .armed ∧ s.seq.startDeadline.isSome = true ∧
                s.tables.limits.startLevel ≤ position + count - s.plu.position) ∨
              (s.seq.showState = .hold ∧ s.seq.holdCause = some .starved ∧
                s.tables.limits.resumeLevel ≤ position + count - s.plu.position)) →
            (runs → t.seq.showState = .running ∧ t.seq.startDeadline = none ∧ t.seq.holdCause = none ∧
              t.seq.endPosition = s.seq.endPosition ∧ t.seq.silent = s.seq.silent ∧ t.plu.starvation = 0 ∧
              ∀ q : Port, t.port q = (s.port q).place ⟨.showState, 0, s.plu.position, s.clock.now⟩) ∧
            (¬ runs → t.seq = s.seq ∧ t.plu.starvation = s.plu.starvation ∧ ∀ q : Port, t.port q = s.port q)) ∧
          t.plu.lowMarkArmed =
            (if s.tables.limits.lowMark + 2400 ≤ position + count - s.plu.position then true else s.plu.lowMarkArmed)))

/-- AUDIO_FLUSH empties the queue in every show state and leaves the position, the count and the volume; in RUNNING with the
silent flag clear the low-mark test follows with a lead of 0 (R27, R35). VOLUME stores the volume clamped to 1000 and changes
nothing else; a body of another length is refused (R29). -/
def Obligations.FlushEmptiesTheQueueAndVolumeIsClamped : Prop :=
  ∀ (s : State) (tag : Byte),
    (s.InExecution .showPort 0x1B tag [] →
      Answers .audioFlush s .showPort 0x1B tag []
        (if s.seq.showState = .running ∧ s.seq.silent = false ∧ s.plu.lowMarkArmed = true ∧ 0 < s.tables.limits.lowMark then
          (s.withPlu { s.plu with queue := [], lowMarkArmed := false }).raise .audioLow 0 0
        else s.withPlu { s.plu with queue := [] }) .ok []) ∧
    ∀ (p : Port) (body : List Byte), s.InExecution p 0x1C tag body →
      (body.length ≠ 2 → Answers (.volume p) s p 0x1C tag body s .badArgument []) ∧
      ∀ hi lo : Byte, body = [hi, lo] →
        Answers (.volume p) s p 0x1C tag body
          (s.withPlu { s.plu with volume := min (256 * hi.toNat + lo.toNat) 1000 }) .ok []

/-- The output frame event with nothing of SEQ's outstanding: outside RUNNING and FADING it puts out silence and touches nothing
else; in RUNNING and FADING it puts out the scaled frame for the position, advances the position by one, retires the head block
that ends there, counts empty frames in RUNNING with the silent flag clear, and makes the low-mark test (R3, R30–R33, R35). After
the advance it hands SEQ a hold asked for, the end position or the day limit reached, or the fade end reached (R15, R16); that
the show state changes only when SEQ takes these by their own rows, and at the latest before the next frame, the fade end and the
end of the show before the hold, is the model's reading (notes/assumptions/5). -/
def Obligations.OutputFramesAdvanceTheShowClock : Prop :=
  ∀ s : State,
    (∀ u, (s.seq.showState = .fading ∧ s.seq.fadeReached = true ∧ exec .fadeEnd s = .next u) ∨
        (s.seq.showState = .running ∧ s.seq.endReached = true ∧ exec .endOfShow s = .next u) ∨
        (s.seq.showState = .running ∧ s.seq.endReached = false ∧ s.seq.holdAsked = true ∧
          exec .starvationHold s = .next u) →
      exec .outputFrameEvent s = exec .outputFrameEvent u) ∧
    ((s.seq.showState = .fading → s.seq.fadeReached = false) →
      (s.seq.showState = .running → s.seq.endReached = false ∧ s.seq.holdAsked = false) →
      (s.seq.showState ≠ .running → s.seq.showState ≠ .fading →
        exec .outputFrameEvent s = .next (s.withPlu { s.plu with output := ⟨0, 0⟩ })) ∧
      (s.seq.showState = .running ∨ s.seq.showState = .fading →
        ∃ t, exec .outputFrameEvent s = .next t ∧ t.plu.position = s.plu.position + 1 ∧ t.plu.volume = s.plu.volume ∧
          t.seq.showState = s.seq.showState ∧ t.seq.endPosition = s.seq.endPosition ∧ t.seq.fadeEnd = s.seq.fadeEnd ∧
          t.cst = s.cst ∧ t.mpPlant = s.mpPlant ∧ t.mpConsole = s.mpConsole ∧
          (s.plu.queue = [] → t.plu.queue = [] ∧ t.plu.output = ⟨0, 0⟩) ∧
          (∀ b bs, s.plu.queue = b :: bs →
            (t.plu.queue = if b.position + b.frames.length ≤ s.plu.position + 1 then bs else b :: bs) ∧
            (s.plu.position < b.position → t.plu.output = ⟨0, 0⟩) ∧
            ∀ f, b.position ≤ s.plu.position → b.frames[s.plu.position - b.position]? = some f →
              (s.estop = false → t.plu.output =
                ⟨(f.left * (s.plu.volume : Int)).tdiv 1000, (f.right * (s.plu.volume : Int)).tdiv 1000⟩) ∧
              (s.estop = true → t.plu.output = ⟨0, 0⟩)) ∧
          t.plu.starvation =
            (if s.seq.showState = .running ∧ s.seq.silent = false then
              (if s.plu.queue = [] then s.plu.starvation + 1 else 0)
            else s.plu.starvation) ∧
          (t.seq.holdAsked = true ↔ s.seq.holdAsked = true ∨
            (s.seq.showState = .running ∧ s.seq.silent = false ∧ s.plu.queue = [] ∧
              s.tables.limits.starveGrace ≤ s.plu.starvation + 1)) ∧
          (t.seq.endReached = true ↔ s.seq.endReached = true ∨
            (s.seq.showState = .running ∧
              (4147200000 ≤ s.plu.position + 1 ∨ ∃ e, s.seq.endPosition = some e ∧ e ≤ s.plu.position + 1))) ∧
          (t.seq.fadeReached = true ↔ s.seq.fadeReached = true ∨
            (s.seq.showState = .fading ∧ ∃ e, s.seq.fadeEnd = some e ∧ e ≤ s.plu.position + 1)) ∧
          ∀ lead, lead = (match t.plu.queue.getLast? with
              | some b => b.position + b.frames.length - t.plu.position
              | none => 0) →
            (s.seq.showState = .running ∧ s.seq.silent = false ∧ s.plu.lowMarkArmed = true ∧
                lead < s.tables.limits.lowMark →
              t.plu.lowMarkArmed = false ∧ t.mpShow = s.mpShow.place ⟨.audioLow, 0, lead, s.clock.now⟩) ∧
            (s.seq.showState = .fading ∨ s.seq.silent = true ∨ s.plu.lowMarkArmed = false ∨
                s.tables.limits.lowMark ≤ lead →
              t.plu.lowMarkArmed = s.plu.lowMarkArmed ∧ t.mpShow = s.mpShow)))

/-- The third law (R21) is kept by every step: at most 64 blocks of 1 to 240 frames, not overlapping and in increasing
positions, each ending after the show position. -/
def Obligations.EveryStepKeepsTheAudioQueueLaw : Prop :=
  ∀ s t : State, s.plu.AudioLaw → step s = .next t → t.plu.AudioLaw

/-- In IDLE, UNCONFIGURED and FADING the audio queue stays empty (R21). -/
def Obligations.EveryStepKeepsTheQueueEmptyWithoutAShow : Prop :=
  ∀ s t : State, s.RecordLaw → s.QuietLaw → step s = .next t → t.QuietLaw

/-! ## Cue store -/

/-- CUE_LOAD of one well-formed entry on a list that obeys the second law (R42, R43, R45): a cue with the same start is updated
in place; an ACTIVE cue with a later start is retired and the entry inserted; otherwise the entry is inserted if the free list
is not empty, and refused POOL_FULL if it is. The free-pool-low test follows, with CUES_LOW (R46). -/
def Obligations.CueLoadStoresOneEntry : Prop :=
  ∀ (s : State) (tag : Byte) (c : Channel) (start duration : Nat) (curve : Curve) (v : List Byte) (e : Cue) (body : List Byte),
    body = bytes 2 c.val ++ bytes 4 start ++ bytes 4 duration ++ bytes 1 curve.code ++ v →
    s.InExecution .showPort 0x18 tag body → start ≤ 86399999 → duration < 4294967296 → v.length = 5 → s.estop = false →
    s.seq.showState ≠ .unconfigured → s.seq.showState ≠ .fading → CueListLaw s.cst.lists[c] →
    e = ⟨start, min duration 600000, curve, decodeValue c v, .loaded, .pending⟩ →
    ∃ t r reply, Answers .cueLoad s .showPort 0x18 tag body t r reply ∧
      (∀ d : Channel, d ≠ c → t.cst.lists[d] = s.cst.lists[d]) ∧ t.cst.shown = s.cst.shown ∧
      t.cst.skipped = s.cst.skipped ∧ s.PoolTested s.mpShow t.cst.free t.cst.poolLowArmed t.mpShow ∧
      (∀ pre k post, s.cst.lists[c] = pre ++ k :: post → k.start = start →
        r = .ok ∧ reply = [0, 1, 0, 255, 0] ++ bytes 2 s.cst.free ∧ t.cst.free = s.cst.free ∧
        ∃ k' : Cue, t.cst.lists[c] = pre ++ k' :: post ∧ k'.start = start ∧ k'.duration = e.duration ∧ k'.curve = curve ∧
          k'.target = e.target ∧ k'.origin = .loaded ∧
          (k.state = .pending → k'.state = .pending) ∧ ∀ f a, k.state = .active f a → k'.state = .active f none) ∧
      ((∀ k ∈ s.cst.lists[c], k.start ≠ start) →
        (∀ k post, s.cst.lists[c] = k :: post → k.isActive = true → start < k.start →
          r = .ok ∧ reply = [1, 0, 0, 255, 0] ++ bytes 2 s.cst.free ∧ t.cst.free = s.cst.free ∧ t.cst.lists[c] = e :: post) ∧
        ((∀ k ∈ s.cst.lists[c], k.isActive = true → k.start < start) →
          (s.cst.free = 0 → r = .partialResult ∧ t.cst.lists[c] = s.cst.lists[c] ∧ t.cst.free = 0 ∧
            reply = [0, 0, 1, 0, 0x0B] ++ bytes 2 0) ∧
          (0 < s.cst.free → r = .ok ∧ t.cst.free = s.cst.free - 1 ∧ reply = [1, 0, 0, 255, 0] ++ bytes 2 (s.cst.free - 1) ∧
            t.cst.lists[c] = (s.cst.lists[c].filter fun k => k.start < start) ++
              e :: s.cst.lists[c].filter fun k => start < k.start)))

/-- A CUE_LOAD of 1 to 64 entries that reaches them takes them in the order in which they stand (R41–R43): each is refused with
BAD_ARGUMENT above channel 335, with a curve code above 2 or with a start above 86,399,999, and then changes no list, or is stored,
updated or refused with POOL_FULL; a stored or updated one stands. The response counts the three kinds, which add up to the number of
entries, gives the first refused one with its reason and the free count, and is OK exactly when none was refused (R45); the
free-pool-low test follows at the end, with CUES_LOW (R46). -/
def Obligations.CueLoadCountsAddUp : Prop :=
  ∀ (s : State) (tag : Byte) (body : List Byte) (entries : List (List Byte)),
    s.InExecution .showPort 0x18 tag body → body.length ≠ 0 → body.length % 16 = 0 → body.length ≤ 1024 →
    entries = ((List.range (body.length / 16)).map fun n => (body.drop (16 * n)).take 16) → s.estop = false →
    s.seq.showState ≠ .unconfigured → s.seq.showState ≠ .fading →
    ∃ u t os, TakenInOrder (fun s e o t => s.LoadsOne e o t ∧ (s.CueLaw → t.CueLaw)) s entries os u ∧
      Answers .cueLoad s .showPort 0x18 tag body t (takenResult os)
        ([BitVec.ofNat 8 (os.count .first), BitVec.ofNat 8 (os.count .second), BitVec.ofNat 8 (refusedCount os),
          BitVec.ofNat 8 (refusedIndex os), BitVec.ofNat 8 (refusedReason os)] ++ bytes 2 t.cst.free) ∧
      os.count .first + os.count .second + refusedCount os = body.length / 16 ∧
      (takenResult os = .ok ↔ refusedCount os = 0) ∧ (∀ o ∈ os, ∀ r, o = .refused r → r = .badArgument ∨ r = .poolFull) ∧
      u.Within [.cst, .mpShow] t ∧ t.cst = { u.cst with poolLowArmed := t.cst.poolLowArmed } ∧
      s.PoolTested s.mpShow t.cst.free t.cst.poolLowArmed t.mpShow

/-- CUE_CLEAR retires every PENDING cue with start at or after from_ms from the lists of its channels, leaves ACTIVE cues and
show values, and reports the number retired and the free count (R47); the free-pool-low test follows, with CUES_LOW (R46). That an
installed cue with start beyond 86,399,999 is retired by a from_ms beyond it is the model's choice (notes/assumptions/38). -/
def Obligations.CueClearRetiresPendingCues : Prop :=
  ∀ (s : State) (tag : Byte) (body : List Byte) (first last fromMs : Nat),
    s.InExecution .showPort 0x19 tag body → body.length = 8 → first = field body 0 2 → last = field body 2 2 →
    fromMs = field body 4 4 → first ≤ last → last ≤ 335 → s.estop = false → s.seq.showState ≠ .unconfigured →
    s.seq.showState ≠ .fading →
    ∃ t retired, Answers .cueClear s .showPort 0x19 tag body t .ok (bytes 2 retired ++ bytes 2 (s.cst.free + retired)) ∧
      (∀ c : Channel, t.cst.lists[c] =
        if first ≤ c.val ∧ c.val ≤ last then s.cst.lists[c].filter fun k => k.isActive || decide (k.start < fromMs)
        else s.cst.lists[c]) ∧
      t.cst.free = s.cst.free + retired ∧ listedCues t.cst.lists + retired = listedCues s.cst.lists ∧
      t.cst.shown = s.cst.shown ∧ t.cst.skipped = s.cst.skipped ∧
      s.PoolTested s.mpShow t.cst.free t.cst.poolLowArmed t.mpShow

/-- CHANNEL_EVALUATION, asked for by the scheduler, with the latest cue due PENDING: it becomes ACTIVE with the show value as
from-value, the cues before it are retired, those of them that were never in force are counted as skipped, and the show value
becomes the value of its ramp (R48–R50); where a cue was retired, the free-pool-low test follows, with CUES_LOW (R46). -/
def Obligations.EvaluationActivatesTheLatestDueCue : Prop :=
  ∀ (s : State) (c : Channel) (g : Gather) (pre post : List Cue) (k : Cue) (now : Nat),
    s.gathering c = some g → g.ask = .evaluate → now = s.plu.position / 48 →
    s.cst.lists[c] = pre ++ k :: post → k.state = .pending → (∀ x ∈ pre, x.start ≤ now) → k.start ≤ now →
    (∀ x ∈ post, now < x.start ∧ x.isPending = true) →
    ∃ t, exec (.channelEvaluation c) s = .next t ∧
      t.cst.lists[c] = { k with state := .active s.cst.shown[c] (if k.origin = .loaded then none else some s.clock.now) } ::
        post ∧
      (∀ d : Channel, d ≠ c → t.cst.lists[d] = s.cst.lists[d] ∧ t.cst.shown[d] = s.cst.shown[d]) ∧
      t.cst.free = s.cst.free + pre.length ∧
      (pre = [] → t.cst.poolLowArmed = s.cst.poolLowArmed ∧ t.mpShow = s.mpShow) ∧
      (pre ≠ [] → s.PoolTested s.mpShow t.cst.free t.cst.poolLowArmed t.mpShow) ∧
      t.cst.skipped = min (s.cst.skipped + (pre.filter Cue.isPending).length) 4294967295 ∧
      t.cst.shown[c] = (if k.origin = .loaded then
          curveValue k.curve s.cst.shown[c] k.target (min (now - k.start) k.duration) k.duration
        else curveValue k.curve s.cst.shown[c] k.target 0 k.duration) ∧
      t.gathering c = some { g with ask := .select t.cst.shown[c] }

/-- CHANNEL_EVALUATION with no PENDING cue due: the list stays; the show value follows the ACTIVE cue, by show time for a LOADED
cue and by local time for an installed one, and stays where there is none or where a LOADED one lies ahead (R48–R50). That a FADE
cue is timed in local time, where R14 speaks of show time, is the model's choice (notes/assumptions/33). -/
def Obligations.EvaluationFollowsTheActiveCue : Prop :=
  ∀ (s : State) (c : Channel) (g : Gather) (post : List Cue) (now : Nat),
    s.gathering c = some g → g.ask = .evaluate → now = s.plu.position / 48 →
    (∀ x ∈ post, now < x.start ∧ x.isPending = true) →
    (s.cst.lists[c] = post →
      ∃ t, exec (.channelEvaluation c) s = .next t ∧ t.cst = { s.cst with skipped := min s.cst.skipped 4294967295 } ∧
        t.mpShow = s.mpShow ∧
        t.gathering c = some { g with ask := .select s.cst.shown[c] }) ∧
    ∀ (k : Cue) (f : Value) (a : Option Time), s.cst.lists[c] = k :: post → k.state = .active f a →
      ∃ t, exec (.channelEvaluation c) s = .next t ∧ t.cst.lists = s.cst.lists ∧ t.cst.free = s.cst.free ∧
        t.cst.poolLowArmed = s.cst.poolLowArmed ∧ t.mpShow = s.mpShow ∧
        t.cst.skipped = min s.cst.skipped 4294967295 ∧ (∀ d : Channel, d ≠ c → t.cst.shown[d] = s.cst.shown[d]) ∧
        (k.origin = .loaded → now < k.start → t.cst.shown[c] = s.cst.shown[c]) ∧
        (k.origin = .loaded → k.start ≤ now →
          t.cst.shown[c] = curveValue k.curve f k.target (min (now - k.start) k.duration) k.duration) ∧
        (∀ since, k.origin ≠ .loaded → a = some since →
          t.cst.shown[c] = curveValue k.curve f k.target (min (s.clock.now - since).toNat k.duration) k.duration) ∧
        t.gathering c = some { g with ask := .select t.cst.shown[c] }

/-- Every ramp of a level or of a colour along any curve (R50–R52): EASE with its progress and weight, the rule's table; the ramp
of a level lies between its ends and gives its target at its end and at duration 0; a STEP gives its target from its beginning on,
and a LINEAR one is truncated toward its from-value; a colour is ramped component by component as levels are. -/
def Obligations.RampsFollowTheirCurvesBetweenTheirEnds : Prop :=
  (∀ (a b e d : Nat), 0 < d → e ≤ d →
    ∃ u w v, u = e * 1000 / d ∧ u ≤ 1000 ∧ w = (3000 * u ^ 2 - 2 * u ^ 3) / 1000000 ∧ w ≤ 1000 ∧
      curveValue .ease (.level a) (.level b) e d = .level v ∧ (v : Int) = a + (((b : Int) - a) * w).tdiv 1000) ∧
  (∀ p ∈ [(0, 0), (100, 28), (250, 156), (500, 500), (750, 843), (1000, 1000)], easeWeight p.1 1000 = p.2) ∧
  (∀ (k : Curve) (a b e d : Nat), e ≤ d →
    ∃ v, curveValue k (.level a) (.level b) e d = .level v ∧ min a b ≤ v ∧ v ≤ max a b ∧ (e = d → v = b) ∧
      (k = .step → v = b) ∧
      (k = .linear → 0 < d → (v : Int) = a + (((b : Int) - a) * e).tdiv d)) ∧
  ∀ (k : Curve) (a b : Colour) (e d : Nat), ∃ v, curveValue k (.colour a) (.colour b) e d = .colour v ∧
    ∀ part ∈ [Colour.r, Colour.g, Colour.b, Colour.w, Colour.i],
      curveValue k (.level (part a)) (.level (part b)) e d = .level (part v)

/-- The first law (R39) is kept by every step: free count plus listed records is 4,096. -/
def Obligations.EveryStepKeepsTheCuePoolLaw : Prop :=
  ∀ s t : State, s.PoolLaw → step s = .next t → t.PoolLaw

/-- The second law (R40) is kept by every step: every cue list is strictly increasing in start, and only its first cue can be
ACTIVE. -/
def Obligations.EveryStepKeepsTheCueListLaw : Prop :=
  ∀ s t : State, s.CueLaw → step s = .next t → t.CueLaw

/-! ## Channel arbiter -/

/-- CLAIM of a list of 1 to 64 channels outside an emergency stop (R63–R65): its entries are taken in order, each refused above
channel 335, on a lockout or at the limit of 64, or refreshing a claim, or making one at the current output value; the response
counts new, refreshed and refused entries, gives the first refused one with its reason, and the claim count. -/
def Obligations.ClaimTakesOrRefreshesAChannel : Prop :=
  ∀ (s : State) (tag : Byte) (ns : List Nat) (body : List Byte),
    1 ≤ ns.length → ns.length ≤ 64 → (∀ n ∈ ns, n < 65536) → body = ns.flatMap (bytes 2) →
    s.InExecution .consolePort 0x20 tag body → s.estop = false →
    ∃ t os, TakenInOrder State.ClaimsOne s ns os t ∧
      Answers .claim s .consolePort 0x20 tag body t (takenResult os)
        [BitVec.ofNat 8 (os.count .first), BitVec.ofNat 8 (os.count .second), BitVec.ofNat 8 (refusedCount os),
          BitVec.ofNat 8 (refusedIndex os), BitVec.ofNat 8 (refusedReason os), BitVec.ofNat 8 t.cha.claimCount]

/-- SET starts a manual ramp from the current manual output and renews the lease (R66). The expiry of a lease ends its claim with
a rejoin from the current manual output and raises CLAIM_EXPIRED (R68). RELEASE of a list of 1 to 64 channels, or of every
channel in ascending order when its body is empty, takes its entries in order: each ends a claim with such a rejoin, or is
counted as not claimed, or is refused above channel 335; the response counts them and gives the claim count (R67). -/
def Obligations.ClaimsAreSetReleasedAndLapse : Prop :=
  (∀ (s : State) (c : Channel) (k : Claim), s.cha.records[c].claim = some k →
    ∀ output : Value, output = (if k.ramp = 0 then k.target
      else k.value.ramp k.target (min (s.clock.now - k.setTime).toNat k.ramp) k.ramp) →
    (∀ (tag : Byte) (v : List Byte) (ramp : Nat) (lease : Time) (body : List Byte), v.length = 5 → ramp < 4294967296 →
      body = bytes 2 c.val ++ v ++ bytes 4 ramp → s.InExecution .consolePort 0x21 tag body → s.estop = false →
      s.cha.records[c].lockout = none → lease = s.clock.now + BitVec.ofNat 32 s.tables.limits.lease →
      Answers .set s .consolePort 0x21 tag body
        (s.withRecord c { s.cha.records[c] with
          claim := some ⟨output, decodeValue c v, s.clock.now, min ramp 60000, lease⟩ }) .ok (bytes 4 lease.toNat)) ∧
    ((s.clock.now - k.lease).toNat < 2147483648 →
      exec (.leaseExpiry c) s = .next (((s.withRecord c { s.cha.records[c] with
        claim := none
        rejoin := some ⟨output, s.clock.now, s.tables.limits.rejoinTime c⟩ }).withClaimCount (s.cha.claimCount - 1)).raise
          .claimExpired c.val (s.cha.claimCount - 1)))) ∧
  ∀ (s : State) (tag : Byte) (ns : List Nat) (body : List Byte),
    (body = [] ∧ ns = List.range 336) ∨
      (1 ≤ ns.length ∧ ns.length ≤ 64 ∧ (∀ n ∈ ns, n < 65536) ∧ body = ns.flatMap (bytes 2)) →
    s.InExecution .consolePort 0x22 tag body →
    ∃ t os, TakenInOrder State.ReleasesOne s ns os t ∧
      Answers .release s .consolePort 0x22 tag body t (takenResult os)
        ([BitVec.ofNat 8 (os.count .first)] ++ bytes 2 (os.count .second) ++ [BitVec.ofNat 8 (refusedCount os),
          BitVec.ofNat 8 (refusedIndex os), BitVec.ofNat 8 t.cha.claimCount])

/-- LOCKOUT of a list of 1 to 64 channels takes its entries in order: each is refused above channel 335, or removes a claim, with
CLAIM_LOST, and a rejoin, and holds the channel at the lock value decoded by its kind; on a pump with held-off set its PRESENT
drive that is ON or POWERING_UP is taken down (R69–R71). UNLOCK of such a list removes lockouts, with a rejoin from the lock
value unless an emergency stop is in effect (R72). The responses count the entries and give the first refused one. -/
def Obligations.LockoutHoldsAndUnlockRejoins : Prop :=
  ∀ (s : State) (tag : Byte) (ns : List Nat) (body : List Byte),
    1 ≤ ns.length → ns.length ≤ 64 → (∀ n ∈ ns, n < 65536) →
    (∀ (v : List Byte) (held reason : Byte), v.length = 5 → body = v ++ [held, reason] ++ ns.flatMap (bytes 2) →
      s.InExecution .plantPort 0x28 tag body →
      ∃ t os, TakenInOrder (State.LocksOne v held reason) s ns os t ∧
        Answers .lockout s .plantPort 0x28 tag body t (takenResult os)
          [BitVec.ofNat 8 (os.count .first), BitVec.ofNat 8 (os.count .second), BitVec.ofNat 8 (refusedCount os),
            BitVec.ofNat 8 (refusedIndex os), BitVec.ofNat 8 (refusedReason os)]) ∧
    (body = ns.flatMap (bytes 2) → s.InExecution .plantPort 0x29 tag body →
      ∃ t os, TakenInOrder State.UnlocksOne s ns os t ∧
        Answers .unlock s .plantPort 0x29 tag body t (takenResult os)
          [BitVec.ofNat 8 (os.count .first), BitVec.ofNat 8 (os.count .second), BitVec.ofNat 8 (refusedCount os),
            BitVec.ofNat 8 (refusedIndex os)])

/-- OUTPUT_SELECTION, asked for by the scheduler, selects the lock value, the manual ramp, the blend of a rejoin or the show value
handed over, removes a rejoin that it finds complete, and changes nothing else of the record (R59–R61). -/
def Obligations.SelectionFollowsTheEffectiveOwner : Prop :=
  ∀ (s : State) (c : Channel) (g : Gather) (shown : Value), s.gathering c = some g → g.ask = .select shown →
    ∃ t v, exec (.outputSelection c) s = .next t ∧ t.gathering c = some { g with ask := .answer v } ∧
      (∀ d : Channel, d ≠ c → t.cha.records[d] = s.cha.records[d]) ∧ t.cha.claimCount = s.cha.claimCount ∧
      (∀ l, s.cha.records[c].lockout = some l → v = l.value ∧ t.cha = s.cha) ∧
      (∀ k, s.cha.records[c].lockout = none → s.cha.records[c].claim = some k →
        t.cha = s.cha ∧ v = (if k.ramp = 0 then k.target
          else k.value.ramp k.target (min (s.clock.now - k.setTime).toNat k.ramp) k.ramp)) ∧
      (s.cha.records[c].lockout = none → s.cha.records[c].claim = none →
        (s.cha.records[c].rejoin = none → v = shown ∧ t.cha = s.cha) ∧
        ∀ r, s.cha.records[c].rejoin = some r →
          (r.duration ≤ (s.clock.now - r.start).toNat → v = shown ∧ t.cha.records[c] = ⟨none, none, none⟩) ∧
          ((s.clock.now - r.start).toNat < r.duration →
            v = r.fromValue.ramp shown (s.clock.now - r.start).toNat r.duration ∧ t.cha = s.cha))

/-- The eighth law (R59) is kept by every step: no channel has both a claim and a lockout, and the claim count, the number of
records that hold a claim, is at most 64. -/
def Obligations.EveryStepKeepsTheOwnershipLaw : Prop :=
  ∀ s t : State, s.cha.OwnershipLaw → step s = .next t → t.cha.OwnershipLaw

/-! ## Frame scheduler -/

/-- SLOT_EXPIRY serves the entry at the pointer and advances the pointer: a group on a free line is gathered; on a busy one it is
counted as an overrun; a NULL entry on a free drive line chooses, searching once round from the drive after the management
pointer, the first drive with a command ready (a POWER_OFF only at a commanded speed of 0), or else the first ABSENT drive, and the
frame of its command, or PROBE, is built in the same event; the drive line records both in ASSEMBLING (R80–R82, R86, R87, R124). At
a new millisecond every age and the length of an emergency stop rise (R119, R155, R168). Which of a millisecond's two expiries is
the first, that ages rise before there is telemetry or a report, the mark of the command built into a frame, and the count of a
stop's length are the model's readings (notes/assumptions/4, 8, 18 and 31). -/
def Obligations.SlotExpiryServesTheEntryAtThePointer : Prop :=
  ∀ s : State, s.clock.released = true →
    ∃ t, exec .slotExpiry s = .next t ∧ t.fsc.pointer.val = (s.fsc.pointer.val + 1) % 40 ∧
      (s.clock.expiries < 2 → t.clock = { s.clock with expiries := s.clock.expiries + 1 } ∧ t.plm = s.plm) ∧
      (2 ≤ s.clock.expiries → t.clock = ⟨s.clock.now + 1, 1, true⟩ ∧
        t.plm = { s.plm with
          windAge := min (s.plm.windAge + 1) 4294967295, levelAge := min (s.plm.levelAge + 1) 4294967295
          stop := s.plm.stop.map fun e => { e with length := min (e.length + 1) 4294967295 } }) ∧
      ∀ aged : Pump → DriveRecord, (∀ i, aged i = if s.clock.expiries < 2 then s.dlc[i] else
          { s.dlc[i] with age := min (s.dlc[i].age + 1) 4294967295 }) →
        (∀ g, s.tables.slots[s.fsc.pointer] = some g →
          t.fsc.management = s.fsc.management ∧ (∀ l, l ≠ lineOf g → t.fsc.line l = s.fsc.line l) ∧ (∀ i : Pump, t.dlc[i] = aged i) ∧
          (s.fsc.line (lineOf g) = .free →
            t.fsc.line (lineOf g) = .assembling ⟨g, [], .evaluate⟩ ∧ t.fsc.overruns = s.fsc.overruns) ∧
          (s.fsc.line (lineOf g) ≠ .free →
            t.fsc.line (lineOf g) = s.fsc.line (lineOf g) ∧
            t.fsc.overruns = s.fsc.overruns.set g (min (s.fsc.overruns[g] + 1) 65535) ∧
            t.mpPlant = s.mpPlant.place ⟨.slotOverrun, g.val, min (s.fsc.overruns[g] + 1) 65535, t.clock.now⟩)) ∧
        (s.tables.slots[s.fsc.pointer] = none →
          t.fsc.overruns = s.fsc.overruns ∧ t.mpPlant = s.mpPlant ∧ (∀ l, l ≠ .drive → t.fsc.line l = s.fsc.line l) ∧
          (s.fsc.drive ≠ .free →
            t.fsc.drive = s.fsc.drive ∧ t.fsc.management = s.fsc.management ∧ ∀ i : Pump, t.dlc[i] = aged i) ∧
          (s.fsc.drive = .free →
            ∀ (Ready : Pump → Prop) (drive : Nat → Pump),
              (∀ d, Ready d ↔ ∃ p, s.dlc[d].pending = some p ∧
                (p.command = .powerOff → s.pgv.pumps[d].commanded = 0)) →
              (∀ k, (drive k).val = (s.fsc.management.val + 1 + k) % 16) →
              (∀ k p f, k < 16 → Ready (drive k) → (∀ j, j < k → ¬ Ready (drive j)) → s.dlc[drive k].pending = some p →
                f = (match p.command with | .powerOn => .power true | .powerOff => .power false | .clear => .clear) →
                t.fsc.management = drive k ∧ t.fsc.drive = .assemblingNull (drive k) f ∧
                (∀ i : Pump, i ≠ drive k → t.dlc[i] = aged i) ∧
                t.dlc[drive k] = { aged (drive k) with pending := some ⟨p.command, p.requestTime, p.prior, true⟩ }) ∧
              ((∀ d, ¬ Ready d) →
                (∀ k, k < 16 → s.dlc[drive k].present = false → (∀ j, j < k → s.dlc[drive j].present = true) →
                  t.fsc.management = drive k ∧ (s.dlc[drive k].pending = none →
                    t.fsc.drive = .assemblingNull (drive k) .probe ∧ ∀ i : Pump, t.dlc[i] = aged i)) ∧
                ((∀ d : Pump, s.dlc[d].present = true) →
                  t.fsc.drive = .free ∧ t.fsc.management = s.fsc.management ∧ ∀ i : Pump, t.dlc[i] = aged i))))

/-- FRAME_HANDOVER of a complete valve bank writes its 32 table entries, each value above its entry lowered to the entry during an
emergency stop; of a complete fixture block, its 24 entries; of a pump's frame, it sends SPEED to a PRESENT drive and PROBE to an
ABSENT one; of a NULL entry's frame, it sends it as built with the choice, at whatever later time, and a POWER frame sets the power
deadline; each frame carries its check (R83–R85, R88, R121, R123, R124, R143, R144, R151, R152). FRAME_END frees its line (R81). The
model's choices: a POWER frame for a drive gone to FAULT since the choice is dropped (notes/assumptions/7), one whose command is no
longer pending sets the deadline all the same, also in ON (39), the speed sent is the one answered (35), and the widths of the fields
under the checks and the kind bytes (12). -/
def Obligations.HandoverWritesTheOutputTables : Prop :=
  ∀ s : State,
    (∀ (g : Group) (outs : List Nat) (ask : Ask), 16 ≤ g.val → g.val < 20 → outs.length = 32 →
      s.fsc.valve = .assembling ⟨g, outs.map Answer.opening, ask⟩ →
      ∃ t sent, exec (.frameHandover .valve) s = .next t ∧ sent.length = 32 ∧
        t.fsc.valve = .sending (.group g) (.valve g sent (crc (bytes 1 g.val ++ sent.flatMap (bytes 2)))) ∧
        t.out.lamps = s.out.lamps ∧
        ∀ j : Jet, t.out.valves[j] =
            (if 32 * (g.val - 16) ≤ j.val ∧ j.val < 32 * (g.val - 16) + 32 then
              (if s.estop then min (outs.getD (j.val - 32 * (g.val - 16)) 0) s.out.valves[j]
                else outs.getD (j.val - 32 * (g.val - 16)) 0)
            else s.out.valves[j]) ∧
          (32 * (g.val - 16) ≤ j.val → j.val < 32 * (g.val - 16) + 32 →
            sent[j.val - 32 * (g.val - 16)]? = some t.out.valves[j])) ∧
    (∀ (l : Line) (g : Group) (outs : List Lamp) (ask : Ask), 20 ≤ g.val → l = lineOf g → outs.length = 24 →
      s.fsc.line l = .assembling ⟨g, outs.map Answer.lamp, ask⟩ →
      ∃ t, exec (.frameHandover l) s = .next t ∧
        t.fsc.line l = .sending (.group g) (.fixture g outs (crc (bytes 1 g.val ++
          outs.flatMap fun o => bytes 1 o.r ++ bytes 1 o.g ++ bytes 1 o.b ++ bytes 1 o.w))) ∧
        t.out.valves = s.out.valves ∧
        ∀ f : Fixture, t.out.lamps[f] =
          if 24 * (g.val - 20) ≤ f.val ∧ f.val < 24 * (g.val - 20) + 24 then
            outs.getD (f.val - 24 * (g.val - 20)) ⟨0, 0, 0, 0⟩ else s.out.lamps[f]) ∧
    (∀ (i : Pump) (check : DriveFrame → BitVec 16), ChecksDriveFrames i check →
      ∀ (g : Group) (n : Nat) (ask : Ask), g.val = i.val → s.fsc.drive = .assembling ⟨g, [.speed n], ask⟩ →
        ∀ f, f = (if s.dlc[i].present then DriveFrame.speed n else .probe) →
          exec (.frameHandover .drive) s = .next (s.withLine .drive (.sending (.group g) (.drive i f (check f))))) ∧
    (∀ (i : Pump) (check : DriveFrame → BitVec 16) (f : DriveFrame), ChecksDriveFrames i check →
      s.fsc.drive = .assemblingNull i f →
        ∀ sending, sending = s.withLine .drive (.sending (.null i) (.drive i f (check f))) →
          ((∀ on, f ≠ .power on) → exec (.frameHandover .drive) s = .next sending) ∧
          ∀ on, f = .power on →
            (s.dlc[i].power ≠ .fault → exec (.frameHandover .drive) s = .next (sending.withDrive i { s.dlc[i] with
              deadline := some (s.clock.now + BitVec.ofNat 32 s.tables.limits.powerTimeout) })) ∧
            (s.dlc[i].power = .fault → exec (.frameHandover .drive) s = .next (s.withLine .drive .free))) ∧
    ∀ (l : Line) (e : LineEntry) (f : LineFrame), l ≠ .drive → s.fsc.line l = .sending e f →
      exec (.frameEnd l) s = .next (s.withLine l .free)

/-! ## Pump governor -/

/-- R96: p(s) = floor(Prated × s³ / 10⁹); p(0) is 0, p(1000) is Prated, p is non-decreasing in s, 0 for Prated 0, and the rule's
two values for Prated 55,000. -/
def Obligations.ThePowerFunctionFollowsTheCube : Prop :=
  (∀ prated speed : Nat, powerAt prated speed = prated * speed ^ 3 / 1000000000) ∧
  (∀ prated : Nat, powerAt prated 0 = 0 ∧ powerAt prated 1000 = prated ∧ powerAt 0 prated = 0) ∧
  (∀ prated a b : Nat, a ≤ b → powerAt prated a ≤ powerAt prated b) ∧
  powerAt 55000 26 = 0 ∧ powerAt 55000 27 = 1

/-- R101: the wind factor of a curve with w_s below w_f, which lies from F to 1000 and does not rise with the wind; and the
ceiling floor(PS × factor / 1000), which lies from the stale ceiling floor(PS × F / 1000) to PS and is PS for class NONE. -/
def Obligations.TheWindCeilingFollowsTheCurve : Prop :=
  (∀ (k : WindCurve) (w : Nat), k.ws < k.wf → k.floor ≤ 1000 →
    (w ≤ k.ws → k.factor w = 1000) ∧ (k.wf ≤ w → k.factor w = k.floor) ∧
    (k.ws < w → w < k.wf → k.factor w = k.floor + (1000 - k.floor) * (k.wf - w) / (k.wf - k.ws)) ∧
    k.floor ≤ k.factor w ∧ k.factor w ≤ 1000 ∧ ∀ v, w ≤ v → k.factor v ≤ k.factor w) ∧
  ∀ (t : Tables) (i : Pump),
    (t.pumps[i].windClass = .none → ∀ wind, t.ceiling i wind = t.pumps[i].ps) ∧
    ∀ k, t.curve t.pumps[i].windClass = some k → k.ws < k.wf → k.floor ≤ 1000 →
      (∀ w, t.ceiling i (some w) = t.pumps[i].ps * k.factor w / 1000) ∧
      t.ceiling i none = t.pumps[i].ps * k.floor / 1000 ∧
      ∀ wind, t.pumps[i].ps * k.floor / 1000 ≤ t.ceiling i wind ∧ t.ceiling i wind ≤ t.pumps[i].ps

/-- COMMAND_COMPUTATION of a pump whose value D has been handed over (R104–R110): at rest for a drive that is not PRESENT and ON
or POWERING_DOWN; else the demand cap, the largest speed within headroom, the budget hold, the run rules and one slew step give
the new commanded speed, its share and the total, and the budget test follows (R112); the answer to the scheduler is the commanded
speed. That a computation at rest makes no budget test is the model's reading (notes/assumptions/19). -/
def Obligations.TheCommandComputationTakesOneStep : Prop :=
  ∀ (s : State) (i : Pump) (g : Gather) (v : Value), s.handedOn (pumpChannel i) = some (g, v) →
    ∃ t, exec (.commandComputation i) s = .next t ∧
      (∀ j : Pump, j ≠ i → t.pgv.pumps[j] = s.pgv.pumps[j]) ∧ t.pgv.budget = s.pgv.budget ∧
      t.pgv.pumps[i].allowed = s.pgv.pumps[i].allowed ∧
      t.fsc = s.fsc.withLine .drive (.assembling ⟨g.group, g.answers ++ [.speed t.pgv.pumps[i].commanded], .evaluate⟩) ∧
      (s.dlc[i].present = false ∨ (s.dlc[i].power ≠ .on ∧ s.dlc[i].power ≠ .poweringDown) →
        t.pgv.pumps[i] = { s.pgv.pumps[i] with commanded := 0, lastCommand := s.clock.now } ∧ t.pgv.total = s.pgv.total ∧
          t.pgv.excess = s.pgv.excess ∧ t.mpPlant = s.mpPlant) ∧
      (s.dlc[i].present = true → (s.dlc[i].power = .on ∨ s.dlc[i].power = .poweringDown) →
        s.BudgetTested s.mpPlant t.pgv.total t.pgv.excess t.mpPlant ∧
        ∃ d1 d2 d3 rate dt : Nat,
          d1 = min (if s.cfg.state = .opened then 0 else v.toLevel) s.pgv.pumps[i].allowed ∧
          dt = min (s.clock.now - s.pgv.pumps[i].lastCommand).toNat 1000 ∧
          rate = (if s.estop then s.tables.pumps[i].erd else s.tables.pumps[i].rd) ∧
          (s.estop = true ∨ s.dlc[i].power = .poweringDown ∨ s.plm.lowWater = true → d3 = 0) ∧
          (s.estop = false → s.dlc[i].power = .on → s.plm.lowWater = false →
            (∃ fit, fit ≤ d1 ∧
              powerAt s.tables.pumps[i].prated fit ≤ s.pgv.budget - (s.pgv.total - s.pgv.pumps[i].share) ∧
              (∀ x, x ≤ d1 → powerAt s.tables.pumps[i].prated x ≤ s.pgv.budget - (s.pgv.total - s.pgv.pumps[i].share) →
                x ≤ fit) ∧
              d2 = if s.pgv.budget < s.pgv.total then min fit s.pgv.pumps[i].commanded else fit) ∧
            d3 = (if d2 < s.tables.pumps[i].mr then 0
              else if 0 < s.tables.pumps[i].mo ∧ s.openingOf i < s.tables.pumps[i].mo then s.tables.pumps[i].mr
              else d2)) ∧
          t.pgv.pumps[i].commanded =
            (if s.pgv.pumps[i].commanded < d3 then
              min d3 (s.pgv.pumps[i].commanded + s.tables.pumps[i].ru * dt / 1000)
            else if d3 < s.pgv.pumps[i].commanded then max d3 (s.pgv.pumps[i].commanded - rate * dt / 1000)
            else s.pgv.pumps[i].commanded) ∧
          t.pgv.pumps[i].share = powerAt s.tables.pumps[i].prated t.pgv.pumps[i].commanded ∧
          (s.pgv.total = ledgerTotal s.pgv.pumps →
            t.pgv.total + s.pgv.pumps[i].share = s.pgv.total + t.pgv.pumps[i].share) ∧
          t.pgv.pumps[i].lastCommand =
            (if d3 ≠ s.pgv.pumps[i].commanded ∧
                (if s.pgv.pumps[i].commanded < d3 then s.tables.pumps[i].ru * dt / 1000 else rate * dt / 1000) = 0 then
              s.pgv.pumps[i].lastCommand else s.clock.now))

/-- The sixth and twelfth laws and the ninth law's part on pumps (R110, R113, R169): a commanded speed rises only by adoption, at
an exchange completion, of the speed a drive reports, or by the governor outside an emergency stop with the ledger within
budget; the rise then stays within the allowed speed, the budget and the pump's ramp. -/
def Obligations.RaisesKeepTheAllowedSpeedTheBudgetAndTheRamp : Prop :=
  ∀ (c : Instr) (s t : State) (i : Pump), s.LedgerLaw → exec c s = .next t →
    s.pgv.pumps[i].commanded < t.pgv.pumps[i].commanded →
    (∃ w x, c = .exchangeCompletion w ∧ t.dlc[i].telemetry = some x ∧ t.pgv.pumps[i].commanded = x.speed) ∨
    (c = .commandComputation i ∧ s.estop = false ∧ s.pgv.total ≤ s.pgv.budget ∧
      t.pgv.pumps[i].commanded ≤ s.pgv.pumps[i].allowed ∧ t.pgv.total ≤ t.pgv.budget ∧
      t.pgv.pumps[i].commanded - s.pgv.pumps[i].commanded ≤
        s.tables.pumps[i].ru * min (s.clock.now - s.pgv.pumps[i].lastCommand).toNat 1000 / 1000)

/-- The fifth law (R97) is kept by every step: T is the sum of the shares, and each share is that of the pump's drive record; and so
is what the budget test makes of the flag (R112): it is set exactly while T exceeds B. -/
def Obligations.EveryStepKeepsTheLedgerLaw : Prop :=
  ∀ s t : State, step s = .next t → (s.LedgerLaw → t.LedgerLaw) ∧ (s.ExcessLaw → t.ExcessLaw)

/-- The seventh law (R103) is kept by every step, with the ranges of the tables in use and of the held tables that it rests on
(R93, R94, R189). -/
def Obligations.EveryStepKeepsTheAllowedSpeedLaw : Prop :=
  ∀ s t : State, s.TablesLaw → s.AllowedLaw → step s = .next t → t.TablesLaw ∧ t.AllowedLaw

/-! ## Drive line -/

/-- DRIVE_POWER from the PLANT port for a drive, by its record (R132, R133): each case's new record, the result and the presence
and power state in the response; every other drive record stays. That the responses DRIVE_ABSENT, CHANNEL_LOCKED and
DRIVE_FAULTED carry that body as well is the model's choice (notes/assumptions/9), and so is that a request for off taken in ON keeps a
deadline left there by a POWER frame sent late (39). -/
def Obligations.DrivePowerFollowsTheDriveRecord : Prop :=
  ∀ (s : State) (tag : Byte) (i : Pump) (d : DriveRecord), d = s.dlc[i] →
    ∀ Takes : Instr → Byte → Result → DriveRecord → Prop,
      (∀ c b r e, Takes c b r e ↔ ∃ t, Answers c s .plantPort 0x32 tag [BitVec.ofNat 8 i.val, b] t r
          (bytes 1 (if e.present then 1 else 0) ++ bytes 1 e.power.code) ∧
        t.dlc[i] = e ∧ (∀ j : Pump, j ≠ i → t.dlc[j] = s.dlc[j]) ∧ (e = d → t = s)) →
    (s.InExecution .plantPort 0x32 tag [BitVec.ofNat 8 i.val, 1] →
      (d.present = false → Takes .drivePowerOn 1 .driveAbsent d) ∧
      (d.present = true → s.heldOff i = true → Takes .drivePowerOn 1 .channelLocked d) ∧
      (d.present = true → s.heldOff i = false →
        (d.power = .fault → Takes .drivePowerOn 1 .driveFaulted d) ∧
        (d.power = .off → Takes .drivePowerOn 1 .ok { d with
          power := .poweringUp, pending := some ⟨.powerOn, s.clock.now, .off, false⟩ }) ∧
        (d.power = .poweringUp ∨ d.power = .on ∨ d.power = .underLocal → Takes .drivePowerOn 1 .ok d) ∧
        (d.power = .poweringDown →
          (∀ time framed, d.pending = some ⟨.powerOff, time, .on, framed⟩ →
            Takes .drivePowerOn 1 .ok { d with power := .on, pending := none, deadline := none }) ∧
          (∀ time framed, d.pending = some ⟨.powerOff, time, .poweringUp, framed⟩ →
            Takes .drivePowerOn 1 .ok { d with power := .poweringUp, pending := none }) ∧
          (∀ time prior framed, prior = .off ∨ prior = .poweringDown → d.pending = some ⟨.powerOff, time, prior, framed⟩ →
            Takes .drivePowerOn 1 .ok { d with
              power := .poweringUp, pending := some ⟨.powerOn, s.clock.now, prior, false⟩ }) ∧
          (d.pending = none → Takes .drivePowerOn 1 .ok { d with
            power := .poweringUp, pending := some ⟨.powerOn, s.clock.now, .poweringDown, false⟩ })))) ∧
    (s.InExecution .plantPort 0x32 tag [BitVec.ofNat 8 i.val, 0] →
      (d.present = false → Takes .drivePowerOff 0 .driveAbsent d) ∧
      (d.present = true →
        (d.power = .off ∨ d.power = .poweringDown ∨ d.power = .underLocal ∨ d.power = .fault →
          Takes .drivePowerOff 0 .ok d) ∧
        (d.power = .on → Takes .drivePowerOff 0 .ok { d with
          power := .poweringDown, pending := some ⟨.powerOff, s.clock.now, .on, false⟩ }) ∧
        (∀ p, d.power = .poweringUp → d.pending = some p → Takes .drivePowerOff 0 .ok { d with
          power := .poweringDown, pending := some ⟨.powerOff, s.clock.now, p.prior, false⟩ }) ∧
        (d.power = .poweringUp → d.pending = none → Takes .drivePowerOff 0 .ok { d with
          power := .poweringDown, pending := some ⟨.powerOff, s.clock.now, .poweringUp, false⟩ })))

/-- DRIVE_CLEAR sets or renews a pending CLEAR of a PRESENT drive in FAULT and otherwise changes nothing (R134); the expiry of a
power deadline in a power transition puts the drive into FAULT with cause POWER_TIMEOUT, its commanded speed and share at 0, the total
recomputed and the budget test made, and DRIVE_FAULT with detail 256 raised to the PLANT and SHOW ports (R137, R98, R112). The model's
readings: that a CLEAR whose request time is renewed is the same command to a frame that carried it (notes/assumptions/18), and
that a budget notice comes before DRIVE_FAULT on the PLANT port (20). The deadline may be one that a POWER frame sent after its command
was removed has left, by the model's choice (39). -/
def Obligations.ClearsArePendingAndPowerDeadlinesExpire : Prop :=
  ∀ (s : State) (i : Pump),
    (∀ (tag : Byte), s.InExecution .plantPort 0x33 tag [BitVec.ofNat 8 i.val] →
      (∀ framed, (framed = true ↔ ∃ time prior, s.dlc[i].pending = some ⟨.clear, time, prior, true⟩) →
        s.dlc[i].present = true → s.dlc[i].power = .fault →
        Answers .driveClear s .plantPort 0x33 tag [BitVec.ofNat 8 i.val]
          (s.withDrive i { s.dlc[i] with pending := some ⟨.clear, s.clock.now, .fault, framed⟩ }) .ok [1, 5]) ∧
      (s.dlc[i].present = false ∨ s.dlc[i].power ≠ .fault →
        Answers .driveClear s .plantPort 0x33 tag [BitVec.ofNat 8 i.val] s .ok
          (bytes 1 (if s.dlc[i].present then 1 else 0) ++ bytes 1 s.dlc[i].power.code))) ∧
    ∀ d, s.dlc[i].deadline = some d → s.dlc[i].power = .poweringUp ∨ s.dlc[i].power = .poweringDown →
      (s.clock.now - d).toNat < 2147483648 →
      ∃ t, exec (.powerDeadlineExpiry i) s = .next t ∧
        (∀ j : Pump, j ≠ i → t.dlc[j] = s.dlc[j] ∧ t.pgv.pumps[j] = s.pgv.pumps[j]) ∧
        s.DriveChanged t i
          { s.dlc[i] with power := .fault, fault := some .powerTimeout, pending := none, deadline := none }
          { s.pgv.pumps[i] with commanded := 0, share := 0 } [(.driveFault, 256)]

/-- EXCHANGE_COMPLETION frees the drive line and judges the window by its first frame (R122). Without a good reply a PRESENT drive
has one more miss and is lost at the third (R125). A good STATE reply renews the telemetry and is judged in order as a trip
(R127), LOCAL (R128), a return from LOCAL or the table of R129; REFUSED returns a refused command's drive to its prior state
(R131); a probe answered is judged as found (R130), and the governor follows each change (R98–R100). A command that a request
has put in place of the one sent is left as it is (R131, R136). What rests on the model's readings: that a later frame of the
window does not count (notes/assumptions/11), by which mark the command that was sent is known (18), the bytes under a reply's
check (12), that reported speeds are those stored (28), that a return from LOCAL at speed 0 is adopted (29), that a fault code
alone raises DRIVE_FAULT on a found drive (30), that a reported OFF removes a POWER_OFF that has not been sent (36), and that a
budget notice comes before the drive's (20). -/
def Obligations.ExchangesAreJudgedAtTheirCompletion : Prop :=
  ∀ (s : State) (i : Pump) (entry : LineEntry) (f : DriveFrame) (check : BitVec 16) (window : List ReplyFrame),
    s.fsc.drive = .sending entry (.drive i f check) →
    ∀ (d : DriveRecord) (p rest : PumpState) (Reply : ReplyKind → Prop) (NoGoodReply : Prop) (Carried : DriveCommand → Prop),
      d = s.dlc[i] → p = s.pgv.pumps[i] → rest = { p with commanded := 0, share := 0 } →
      (∀ k, Reply k ↔ ∃ later, window = ⟨i.val + 1, k, replyCheck (i.val + 1) k⟩ :: later) →
      (NoGoodReply ↔ ∀ w, window.head? = some w →
        w.check ≠ replyCheck w.address w.kind ∨ w.address ≠ i.val + 1 ∨ w.kind = .other) →
      (∀ c, Carried c ↔ (∃ time prior, d.pending = some ⟨c, time, prior, true⟩) ∧
        f = (match c with | .powerOn => .power true | .powerOff => .power false | .clear => .clear)) →
      ∃ t, exec (.exchangeCompletion window) s = .next t ∧ t.fsc = s.fsc.withLine .drive .free ∧
        (∀ j : Pump, j ≠ i → t.dlc[j] = s.dlc[j] ∧ t.pgv.pumps[j] = s.pgv.pumps[j]) ∧
        (d.present = false → NoGoodReply ∨ Reply .refused → s.DriveKept t i d []) ∧
        (d.present = true → NoGoodReply →
          (d.misses < 2 → s.DriveKept t i { d with misses := d.misses + 1 } []) ∧
          (2 ≤ d.misses → s.DriveChanged t i { d with
            present := false, power := .off, pending := none, deadline := none, fault := none, misses := 3 } rest
            [(.driveLost, p.commanded)])) ∧
        (d.present = true → Reply .refused →
          ((∃ n, f = .speed n) ∨ f = .probe → s.DriveKept t i { d with misses := 0 } []) ∧
          ∀ c, f = (match c with | .powerOn => .power true | .powerOff => .power false | .clear => .clear) →
            ∀ n, n = (match c with | .powerOn => 1 | .powerOff => 2 | .clear => 3) →
            (¬ Carried c → s.DriveKept t i { d with misses := 0 } [(.driveRefused, n)]) ∧
            ∀ time prior e, d.pending = some ⟨c, time, prior, true⟩ → e = { d with
                misses := 0, pending := none, power := prior
                deadline := if prior = .off ∨ prior = .on ∨ prior = .fault then none else d.deadline } →
              (prior = .off ∨ prior = .poweringUp ∨ prior = .fault → s.DriveChanged t i e rest [(.driveRefused, n)]) ∧
              (prior = .on ∨ prior = .poweringDown → s.DriveChanged t i e
                { p with share := powerAt s.tables.pumps[i].prated p.commanded } [(.driveRefused, n)])) ∧
        ∀ (r : Reported) (x y : Telemetry) (code : Nat), Reply (.state r x) → y = { x with speed := min x.speed 1000 } →
          code = (if x.faultCode = 0 then 255 else x.faultCode.toNat) →
          (d.present = false →
            s.DriveFound t i { d with present := true, misses := 0, telemetry := some y, age := 0 } r y false
              ([(.driveFound, y.speed)] ++ if r = .tripped ∨ x.faultCode ≠ 0 then [(.driveFault, code)] else [])) ∧
          ∀ h g : DriveRecord, h = { d with misses := 0, telemetry := some y, age := 0 } →
            (Carried .powerOn ∨ Carried .powerOff ∨ Carried .clear → g = { h with pending := none }) →
            (¬ Carried .powerOn → ¬ Carried .powerOff → ¬ Carried .clear → g = h) →
            d.present = true →
            (r = .tripped ∨ x.faultCode ≠ 0 →
              (d.power ≠ .fault → s.DriveChanged t i { h with
                power := .fault, fault := some (.trip code), pending := none, deadline := none } rest
                [(.driveFault, code)]) ∧
              (d.power = .fault → Carried .clear →
                s.DriveKept t i { h with fault := some (.trip code), pending := none } [(.driveFault, code)]) ∧
              (d.power = .fault → ¬ Carried .clear → s.DriveKept t i { h with fault := some (.trip code) } [])) ∧
            (x.faultCode = 0 →
              (∀ q, r = .underLocal →
                q = { p with commanded := 0, share := powerAt s.tables.pumps[i].prated y.speed } →
                (d.power = .underLocal → s.DriveChanged t i h q []) ∧
                (d.power ≠ .underLocal → s.DriveChanged t i { h with
                  power := .underLocal, pending := none, deadline := none, fault := none } q [])) ∧
              (r ≠ .tripped → r ≠ .underLocal → d.power = .underLocal →
                s.DriveFound t i h r y true (if r = .ready then [(.driveReady, y.speed)] else [])) ∧
              (r ≠ .tripped → r ≠ .underLocal → (d.fault.isSome = true ↔ d.power = .fault) →
                (d.power = .off →
                  (r = .off ∨ r = .stopping → s.DriveKept t i g []) ∧
                  (r = .starting → s.DriveFound t i g r y false []) ∧
                  (r = .ready → s.DriveFound t i g r y false [(.driveReady, y.speed)])) ∧
                (d.power = .poweringUp →
                  (r = .ready → s.DriveChanged t i { g with power := .on, pending := none, deadline := none }
                    { p with share := powerAt s.tables.pumps[i].prated p.commanded } [(.driveReady, y.speed)]) ∧
                  (r ≠ .ready → s.DriveKept t i g [])) ∧
                (d.power = .on →
                  (r = .off → s.DriveChanged t i { g with power := .off, deadline := none } rest []) ∧
                  (r = .stopping → s.DriveChanged t i { g with
                      power := .poweringDown
                      deadline := some (s.clock.now + BitVec.ofNat 32 s.tables.limits.powerTimeout) }
                    { p with share := powerAt s.tables.pumps[i].prated p.commanded } []) ∧
                  (r = .starting ∨ r = .ready → s.DriveKept t i g [])) ∧
                (d.power = .poweringDown →
                  (r = .off → s.DriveChanged t i { g with power := .off, pending := none, deadline := none } rest []) ∧
                  (r ≠ .off → s.DriveKept t i g [])) ∧
                ∀ cause, d.power = .fault → d.fault = some cause →
                  (r = .off → (∃ time prior framed, d.pending = some ⟨.clear, time, prior, framed⟩) →
                    s.DriveChanged t i { g with power := .off, fault := none, pending := none, deadline := none } rest []) ∧
                  (r = .off → (∀ time prior framed, d.pending ≠ some ⟨.clear, time, prior, framed⟩) → s.DriveKept t i g []) ∧
                  (r ≠ .off → Carried .clear → s.DriveKept t i g [(.driveFault,
                    match cause with | .trip n => n | .powerTimeout => 256)]) ∧
                  (r ≠ .off → ¬ Carried .clear → s.DriveKept t i g [])))

/-- The eleventh law (R120) is kept by every step: an ABSENT drive has no pending command and three misses; and with it the
presence of a fault cause exactly in FAULT, where alone a CLEAR, with prior state FAULT, is pending (R119, R134). -/
def Obligations.EveryStepKeepsTheAbsentDriveLaw : Prop :=
  ∀ s t : State, step s = .next t →
    ((∀ i : Pump, s.dlc[i].AbsentLaw) → ∀ i : Pump, t.dlc[i].AbsentLaw) ∧
    ((∀ i : Pump, s.dlc[i].FaultLaw) → ∀ i : Pump, t.dlc[i].FaultLaw)

/-! ## Output unit -/

/-- VALVE_ANSWER answers by the valve rule of the jet's mode, from the rest value while the configuration is open, and during an
emergency stop by the hold rule (R141, R142). FIXTURE_RENDERING takes the safety colour, the rest colour or the selected colour,
caps an exposed fixture, handles the white by emitters and mode, and scales (R147–R150). Each only adds its answer to the
gathered frame, by the state that stands when it is taken (R145, R153). -/
def Obligations.JetsAndFixturesAreAnswered : Prop :=
  (∀ (s : State) (j : Jet) (g : Gather) (v : Value), s.handedOn (jetChannel j) = some (g, v) →
    ∃ n, exec (.valveAnswer j) s = .next (s.withLine .valve (.assembling ⟨g.group, g.answers ++ [.opening n], .evaluate⟩)) ∧
      (s.estop = true →
        ((∃ (i : Pump) (x : Telemetry), s.tables.jets[j].supply = some i ∧ s.dlc[i].present = true ∧
            (s.dlc[i].power = .on ∨ s.dlc[i].power = .poweringDown ∨ s.dlc[i].power = .underLocal) ∧
            s.dlc[i].telemetry = some x ∧ s.tables.pumps[i].mr ≤ x.speed) → n = s.out.valves[j]) ∧
        ((¬ ∃ (i : Pump) (x : Telemetry), s.tables.jets[j].supply = some i ∧ s.dlc[i].present = true ∧
            (s.dlc[i].power = .on ∨ s.dlc[i].power = .poweringDown ∨ s.dlc[i].power = .underLocal) ∧
            s.dlc[i].telemetry = some x ∧ s.tables.pumps[i].mr ≤ x.speed) → n = 0)) ∧
      ∀ input, s.estop = false → input = (if s.cfg.state = .opened then s.tables.jets[j].rest else v.toLevel) →
        (s.tables.jets[j].mode = .proportional → n = input) ∧
        (s.tables.jets[j].mode = .onOff → n = if 500 ≤ input then 1000 else 0)) ∧
  ∀ (s : State) (f : Fixture) (g : Gather) (v : Value), s.handedOn (fixtureChannel f) = some (g, v) →
    ∀ (e : FixtureEntry) (c : Colour) (capped : Nat), e = s.tables.fixtures[f] →
      c = (if s.estop then e.safety else if s.cfg.state = .opened then e.rest else v.toColour) →
      capped = (if ∃ depth, e.immersion = some depth ∧
          (s.plm.levelDeadline = none ∨ s.plm.basinLevel.getD 0 < depth) then min c.i e.cap else c.i) →
      ∃ lamp : Lamp, exec (.fixtureRendering f) s =
          .next (s.withLine (lineOf g.group) (.assembling ⟨g.group, g.answers ++ [.lamp lamp], .evaluate⟩)) ∧
        (e.emitters = .rgbw → e.white = .auto →
          lamp = ⟨(c.r - min c.r (min c.g c.b)) * capped / 255, (c.g - min c.r (min c.g c.b)) * capped / 255,
            (c.b - min c.r (min c.g c.b)) * capped / 255, min 255 (c.w + min c.r (min c.g c.b)) * capped / 255⟩) ∧
        (e.emitters = .rgbw → e.white = .direct →
          lamp = ⟨c.r * capped / 255, c.g * capped / 255, c.b * capped / 255, c.w * capped / 255⟩) ∧
        (e.emitters = .rgb →
          lamp = ⟨min 255 (c.r + c.w) * capped / 255, min 255 (c.g + c.w) * capped / 255,
            min 255 (c.b + c.w) * capped / 255, 0⟩)

/-- The ninth law's part on jets (R143, R169): while an emergency stop is in effect, no command raises an entry of the valve
output table. -/
def Obligations.NoJetOutputRisesDuringAnEmergencyStop : Prop :=
  ∀ (c : Instr) (s t : State), s.estop = true → exec c s = .next t → ∀ j : Jet, t.out.valves[j] ≤ s.out.valves[j]

/-! ## Plant monitor -/

/-- WIND, LEVEL and BUDGET store the clamped report with its age and deadline and answer with it; WIND updates every allowed speed
from the ceiling, LEVEL makes the low-water test, BUDGET sets B and makes the budget test; a body of another length is refused
(R102, R111, R112, R156, R158, R160, R161). -/
def Obligations.PlantReportsAreStoredAndActedOn : Prop :=
  ∀ (s : State) (tag : Byte) (body : List Byte),
    (s.InExecution .plantPort 0x34 tag body →
      (body.length ≠ 2 → Answers .wind s .plantPort 0x34 tag body s .badArgument []) ∧
      ∀ w, body.length = 2 → w = min (field body 0 2) 600 →
        ∃ t, Answers .wind s .plantPort 0x34 tag body t .ok (bytes 2 w) ∧
          t.plm = { s.plm with
            windSpeed := some w, windAge := 0
            windDeadline := some (s.clock.now + BitVec.ofNat 32 s.tables.limits.windStale) } ∧
          t.pgv.total = s.pgv.total ∧ t.pgv.budget = s.pgv.budget ∧
          ∀ i : Pump, t.pgv.pumps[i] = { s.pgv.pumps[i] with
            allowed := if s.tables.ceiling i (some w) < s.pgv.pumps[i].allowed then s.tables.ceiling i (some w)
              else min (s.tables.ceiling i (some w)) (s.pgv.pumps[i].allowed + s.tables.limits.air) }) ∧
    (s.InExecution .plantPort 0x35 tag body →
      (body.length ≠ 2 → Answers .level s .plantPort 0x35 tag body s .badArgument []) ∧
      ∀ v u, body.length = 2 → v = min (field body 0 2) 5000 →
        u = s.withPlm { s.plm with
          basinLevel := some v, levelAge := 0
          levelDeadline := some (s.clock.now + BitVec.ofNat 32 s.tables.limits.levelStale) } →
        (s.plm.lowWater = false → v < s.tables.limits.lowLevelTrip →
          Answers .level s .plantPort 0x35 tag body
            ((u.withPlm { u.plm with lowWater := true }).raise .lowWater 0 v) .ok (bytes 2 v ++ [1])) ∧
        (s.plm.lowWater = false → s.tables.limits.lowLevelTrip ≤ v →
          Answers .level s .plantPort 0x35 tag body u .ok (bytes 2 v ++ [0])) ∧
        (s.plm.lowWater = true → v < s.tables.limits.lowLevelTrip + 50 →
          Answers .level s .plantPort 0x35 tag body u .ok (bytes 2 v ++ [1])) ∧
        (s.plm.lowWater = true → s.tables.limits.lowLevelTrip + 50 ≤ v →
          Answers .level s .plantPort 0x35 tag body
            ((u.withPlm { u.plm with lowWater := false }).raise .waterOk 0 v) .ok (bytes 2 v ++ [0]))) ∧
    (s.InExecution .plantPort 0x36 tag body →
      (body.length ≠ 4 → Answers .budget s .plantPort 0x36 tag body s .badArgument []) ∧
      ∀ b u, body.length = 4 → b = min (field body 0 4) 4000000 → u = s.withPgv { s.pgv with budget := b } →
        (s.pgv.excess = false → b < s.pgv.total →
          Answers .budget s .plantPort 0x36 tag body
            ((u.withPgv { u.pgv with excess := true }).raise .budgetExcess 0 (s.pgv.total - b)) .ok (bytes 4 b)) ∧
        (s.pgv.excess = true → s.pgv.total ≤ b →
          Answers .budget s .plantPort 0x36 tag body
            ((u.withPgv { u.pgv with excess := false }).raise .budgetOk 0 (b - s.pgv.total)) .ok (bytes 4 b)) ∧
        ((s.pgv.excess = true ↔ b < s.pgv.total) → Answers .budget s .plantPort 0x36 tag body u .ok (bytes 4 b)))

/-- The expiries of the wind and level deadlines make the quantity STALE and keep its value, flag and age; WIND_STALE or
LEVEL_STALE is raised with the value last reported, and a stale wind moves every allowed speed toward its stale ceiling (R103,
R157, R159). -/
def Obligations.ReportsGoStaleAtTheirDeadlines : Prop :=
  ∀ (s : State) (d : Time), (s.clock.now - d).toNat < 2147483648 →
    (∀ w, s.plm.windDeadline = some d → s.plm.windSpeed = some w →
      ∃ t, exec .windDeadlineExpiry s = .next t ∧ t.plm = { s.plm with windDeadline := none } ∧
        t.mpShow = s.mpShow.place ⟨.windStale, 0, w, s.clock.now⟩ ∧
        t.mpPlant = s.mpPlant.place ⟨.windStale, 0, w, s.clock.now⟩ ∧
        t.pgv.total = s.pgv.total ∧
        ∀ i : Pump, t.pgv.pumps[i] = { s.pgv.pumps[i] with
          allowed := if s.tables.ceiling i none < s.pgv.pumps[i].allowed then s.tables.ceiling i none
            else min (s.tables.ceiling i none) (s.pgv.pumps[i].allowed + s.tables.limits.air) }) ∧
    (∀ v, s.plm.levelDeadline = some d → s.plm.basinLevel = some v →
      exec .levelDeadlineExpiry s =
        .next ((s.withPlm { s.plm with levelDeadline := none }).raise .levelStale 0 v))

/-- ESTOP sets the latch and ESTOP_RESET clears it; ESTOP_N sets or removes its debounce deadline at each change of its level and
at the release of RESET_N, and at the deadline its level becomes the line state; each such event enters or leaves the stop as
R163 judges, and keeps it otherwise (R162–R168). The entry raises ESTOP with the cause as its detail, SHOW_STATE, CUES_LOW where
the pool test calls for it, and CLAIM_LOST for every claim; the exit raises ESTOP_CLEAR with the length of the stop, and a jet's
or fixture's value handed on before it becomes the start of its channel's rejoin, from which the answer after it is given (R145,
R153); FSC's state stands otherwise, and with it the value handed on for a pump (R91, R104). The model's readings: that a change of the
raw level back once local time has reached the deadline removes it as well (notes/assumptions/40), that a value handed on is replaced
in the ask outstanding (34), that the flush of an entry makes no low-mark test and so raises no AUDIO_LOW, the low-mark flag being kept
as R37 lists it (6), the order of an entry's notices (20), and the way the length is counted (31). -/
def Obligations.TheEmergencyStopIsEnteredAndLeft : Prop :=
  ∀ (s : State) (tag : Byte),
    (s.InExecution .plantPort 0x30 tag [] →
      ∃ t, Answers .estop s .plantPort 0x30 tag [] t .ok [if s.plm.lineActive then 0 else 1, 1, 1] ∧ t.plm.latch = true ∧
        t.plm.lineActive = s.plm.lineActive ∧ (s.plm.stop = none → s.StopEntered .latch t) ∧
        (s.plm.stop ≠ none → t = s.withPlm { s.plm with latch := true })) ∧
    (s.InExecution .plantPort 0x31 tag [] →
      (s.plm.lineActive = true → s.plm.stop ≠ none → Answers .estopReset s .plantPort 0x31 tag []
        (s.withPlm { s.plm with latch := false }) .estopActive [0, 0, 1]) ∧
      (s.plm.lineActive = false →
        ∃ t, Answers .estopReset s .plantPort 0x31 tag [] t .ok [1, 0, 0] ∧ t.plm.latch = false ∧
          (s.plm.stop = none → t = s.withPlm { s.plm with latch := false }) ∧
          ∀ e, s.plm.stop = some e → s.StopLeft e t)) ∧
    (∀ low, s.clock.released = true → low ≠ s.plm.rawLow →
      exec (.estopNChange low) s = .next (s.withPlm { s.plm with
        rawLow := low
        debounce := if low = s.plm.lineActive then none else some (s.clock.now + 10) })) ∧
    (s.clock.released = false →
      exec .resetNRelease s = .next ((s.withClock { s.clock with released := true }).withPlm { s.plm with
        debounce := if s.plm.rawLow = s.plm.lineActive then none else some (s.clock.now + 10) })) ∧
    ∀ d, s.plm.debounce = some d → (s.clock.now - d).toNat < 2147483648 → s.plm.rawLow ≠ s.plm.lineActive →
      ∃ t, exec .debounceDeadlineExpiry s = .next t ∧ t.plm.lineActive = s.plm.rawLow ∧ t.plm.debounce = none ∧
        t.plm.latch = s.plm.latch ∧
        (s.plm.stop = none → s.plm.rawLow = true → s.StopEntered .line t) ∧
        (∀ e, s.plm.stop = some e → s.plm.rawLow = false → s.plm.latch = false → s.StopLeft e t) ∧
        (∀ e, s.plm.stop = some e → s.plm.rawLow = true ∨ s.plm.latch = true →
          t = s.withPlm { s.plm with lineActive := s.plm.rawLow, debounce := none })

/-- Every step keeps R163 and the part of the ninth law that speaks of a state (R169): the stop is in effect exactly while the
line or the latch calls for it, and then the show is IDLE or UNCONFIGURED and no console claim exists; and the length of a stop,
which is local time since its entry and is held at 4,294,967,295 ms (R168; that it is counted millisecond by millisecond is
the model's reading, notes/assumptions/31). While RESET_N is held, from a cold reset on, every step keeps every block at its cold
reset values, the level of the ESTOP_N pin and the waiting commands apart, so that it holds them at the release (R194; that no
transaction is taken before the release is the model's reading, notes/assumptions/32). -/
def Obligations.EveryStepKeepsTheEmergencyStopLaw : Prop :=
  ∀ s t : State, step s = .next t →
    (s.plm.StopLaw → s.StoppedLaw → t.plm.StopLaw ∧ t.StoppedLaw) ∧ (s.StopLengthLaw → t.StopLengthLaw) ∧
      (s.HeldLaw → t.HeldLaw)

/-! ## Configuration -/

/-- CONFIG_OPEN by the order of its tests, with the held tables set to copies of those in use and the show UNCONFIGURED (R18,
R188); CONFIG_WRITE in OPEN of each of the six items replaces the whole held item when every field is in range and is refused
otherwise, as it is for an unknown item code, an index that names nothing or a wrong length, no table in use changing (R189). -/
def Obligations.TheConfigurationIsOpenedAndWritten : Prop :=
  ∀ (s : State) (tag : Byte) (body : List Byte),
    (s.InExecution .plantPort 0x40 tag body →
      (body ≠ [] → Answers .configOpen s .plantPort 0x40 tag body s .badArgument [255]) ∧
      (body = [] →
        (s.cfg.state = .opened → Answers .configOpen s .plantPort 0x40 tag body s .ok []) ∧
        (s.cfg.state ≠ .opened → s.seq.showState ≠ .idle → s.seq.showState ≠ .unconfigured →
          Answers .configOpen s .plantPort 0x40 tag body s .busyState [255]) ∧
        (s.cfg.state ≠ .opened → s.seq.showState = .idle ∨ s.seq.showState = .unconfigured →
          (∀ i : Pump, (0 < s.pgv.pumps[i].commanded ∨ s.dlc[i].power = .underLocal) →
            (∀ j : Pump, j < i → s.pgv.pumps[j].commanded = 0 ∧ s.dlc[j].power ≠ .underLocal) →
            Answers .configOpen s .plantPort 0x40 tag body s .busyState [BitVec.ofNat 8 i.val]) ∧
          ((∀ i : Pump, s.pgv.pumps[i].commanded = 0 ∧ s.dlc[i].power ≠ .underLocal) →
            ∃ t, Answers .configOpen s .plantPort 0x40 tag body t .ok [] ∧ t.cfg = ⟨.opened, s.tables⟩ ∧
              t.seq.showState = .unconfigured ∧ t.seq.idleCause = s.seq.idleCause ∧
              t.seq.resetOrigin = s.seq.resetOrigin)))) ∧
    (s.InExecution .plantPort 0x41 tag body →
      (s.cfg.state ≠ .opened → Answers .configWrite s .plantPort 0x41 tag body s .busyState []) ∧
      ∀ (Stores : Tables → Prop) (Refused : Prop) (f : Nat → Nat) (code index : Nat) (x : Tables), s.cfg.state = .opened →
        (∀ y, Stores y ↔ Answers .configWrite s .plantPort 0x41 tag body (s.withCfg ⟨.opened, y⟩) .ok
          [BitVec.ofNat 8 code, BitVec.ofNat 8 index]) →
        (Refused ↔ Answers .configWrite s .plantPort 0x41 tag body s .badArgument []) →
        (∀ n, f n = field body (2 + 4 * n) 4) → code = field body 0 1 → index = field body 1 1 → x = s.cfg.held →
        (code = 0 ∨ 6 < code ∨ (code = 1 ∧ (15 < index ∨ body.length ≠ 38)) ∨
            (code = 2 ∧ (127 < index ∨ body.length ≠ 14)) ∨ (code = 3 ∧ (191 < index ∨ body.length ≠ 28)) ∨
            (code = 4 ∧ (index < 1 ∨ 3 < index ∨ body.length ≠ 14)) ∨ (code = 5 ∧ (index ≠ 0 ∨ body.length ≠ 42)) ∨
            (code = 6 ∧ (index ≠ 0 ∨ body.length ≠ 66)) → Refused) ∧
        (∀ i : Pump, code = 1 → index = i.val → body.length = 38 →
          (f 0 ≤ 250000 ∧ f 1 ≤ 1000 ∧ 50 ≤ f 2 ∧ f 2 ≤ 500 ∧ 10 ≤ f 3 ∧ f 3 ≤ 1000 ∧ 10 ≤ f 4 ∧ f 4 ≤ 1000 ∧ 10 ≤ f 5 ∧
              f 5 ≤ 1000 ∧ f 6 ≤ 3 ∧ f 7 ≤ 32000 ∧ f 8 ≤ 1000 →
            ∃ e : PumpEntry, Stores { x with pumps := x.pumps.set i e } ∧
              [e.prated, e.ps, e.mr, e.ru, e.rd, e.erd, e.mo, e.rest] = [f 0, f 1, f 2, f 3, f 4, f 5, f 7, f 8] ∧
              some e.windClass = [WindClass.none, .low, .mid, .tall][f 6]?) ∧
          (250000 < f 0 ∨ 1000 < f 1 ∨ f 2 < 50 ∨ 500 < f 2 ∨ f 3 < 10 ∨ 1000 < f 3 ∨ f 4 < 10 ∨ 1000 < f 4 ∨ f 5 < 10 ∨
              1000 < f 5 ∨ 3 < f 6 ∨ 32000 < f 7 ∨ 1000 < f 8 → Refused)) ∧
        (∀ j : Jet, code = 2 → index = j.val → body.length = 14 →
          (f 0 ≤ 1 ∧ (f 1 ≤ 15 ∨ f 1 = 0xFFFFFFFF) ∧ f 2 ≤ 1000 →
            ∃ e : JetEntry, Stores { x with jets := x.jets.set j e } ∧ e.rest = f 2 ∧
              e.mode = (if f 0 = 0 then .onOff else .proportional) ∧ (f 1 = 0xFFFFFFFF → e.supply = none) ∧
              ∀ i : Pump, f 1 = i.val → e.supply = some i) ∧
          (1 < f 0 ∨ (15 < f 1 ∧ f 1 ≠ 0xFFFFFFFF) ∨ 1000 < f 2 → Refused)) ∧
        (∀ l : Fixture, code = 3 → index = l.val → body.length = 28 →
          (f 0 ≤ 1 ∧ f 1 ≤ 1 ∧ (f 2 ≤ 5000 ∨ f 2 = 0xFFFFFFFF) ∧ f 3 ≤ 255 →
            ∃ e : FixtureEntry, Stores { x with fixtures := x.fixtures.set l e } ∧
              e.emitters = (if f 0 = 0 then .rgb else .rgbw) ∧ e.white = (if f 1 = 0 then .direct else .auto) ∧
              e.immersion = (if f 2 = 0xFFFFFFFF then none else some (f 2)) ∧ e.cap = f 3 ∧
              [e.safety.r, e.safety.g, e.safety.b, e.safety.w, e.safety.i, e.rest.r, e.rest.g, e.rest.b, e.rest.w,
                e.rest.i] = (body.drop 18).map BitVec.toNat) ∧
          (1 < f 0 ∨ 1 < f 1 ∨ (5000 < f 2 ∧ f 2 ≠ 0xFFFFFFFF) ∨ 255 < f 3 → Refused)) ∧
        (code = 4 → 1 ≤ index → index ≤ 3 → body.length = 14 →
          (f 0 ≤ 600 ∧ f 1 ≤ 600 ∧ f 2 ≤ 1000 →
            (index = 1 → Stores { x with low := ⟨f 0, f 1, f 2⟩ }) ∧ (index = 2 → Stores { x with mid := ⟨f 0, f 1, f 2⟩ }) ∧
            (index = 3 → Stores { x with tall := ⟨f 0, f 1, f 2⟩ })) ∧
          (600 < f 0 ∨ 600 < f 1 ∨ 1000 < f 2 → Refused)) ∧
        (code = 5 → index = 0 → body.length = 42 →
          ((∀ n : Slot, field body (2 + n.val) 1 < 28 ∨ field body (2 + n.val) 1 = 255) →
            ∃ slots, Stores { x with slots := slots } ∧ ∀ n : Slot,
              (field body (2 + n.val) 1 = 255 → slots[n] = none) ∧
              ∀ g : Group, field body (2 + n.val) 1 = g.val → slots[n] = some g) ∧
          (∀ n : Slot, 28 ≤ field body (2 + n.val) 1 → field body (2 + n.val) 1 ≠ 255 → Refused)) ∧
        (code = 6 → index = 0 → body.length = 66 →
          ∀ bounds : List (Nat × Nat), bounds = [(0, 65535), (0, 65535), (0, 12960), (0, 96000), (1000, 60000), (0, 60000),
              (500, 10000), (0, 10000), (0, 10000), (0, 10000), (1, 200), (1000, 60000), (1000, 60000), (0, 4950),
              (1000, 30000), (0, 2048)] →
            ((∀ n, n < 16 → (bounds.getD n (0, 0)).1 ≤ f n ∧ f n ≤ (bounds.getD n (0, 0)).2) →
              ∃ l : Limits, Stores { x with limits := l } ∧
                [l.startLevel, l.resumeLevel, l.lowMark, l.starveGrace, l.startTimeout, l.fadeTime, l.lease, l.pumpRejoin,
                  l.jetRejoin, l.fixtureRejoin, l.air, l.windStale, l.levelStale, l.lowLevelTrip, l.powerTimeout,
                  l.lowPool] = (List.range 16).map f) ∧
            (∀ n, n < 16 → f n < (bounds.getD n (0, 0)).1 ∨ (bounds.getD n (0, 0)).2 < f n → Refused)))

/-- CONFIG_COMMIT in OPEN installs the held tables exactly when they pass the six checks: the tables in use, the slot pointer, the
cue lists and show values, the free-pool-low test, the shares and allowed speeds with the budget test, the show IDLE (R18, R46, R56,
R90, R112, R116, R190, R191); else it is answered BAD_CONFIG with the first check that fails, the item's code and the index, and changes nothing.
Outside OPEN it is refused. That CUES_LOW and a budget notice come before SHOW_STATE, and that the lowest of several failing wind
curves is named, are the model's readings (notes/assumptions/20 and 37). -/
def Obligations.TheCommitInstallsCheckedTables : Prop :=
  ∀ (s : State) (tag : Byte), s.InExecution .plantPort 0x42 tag [] →
    (s.cfg.state ≠ .opened → Answers .configCommit s .plantPort 0x42 tag [] s .busyState []) ∧
    (∀ (x : Tables) (Bad : List Byte → Prop) (Named : Group → Prop) (Crowded : Slot → Slot → Prop) (Curves Pumps : Prop),
      s.cfg.state = .opened → x = s.cfg.held →
      (∀ reply, Bad reply ↔ Answers .configCommit s .plantPort 0x42 tag [] s .badConfig reply) →
      (∀ g, Named g ↔ ∃ n : Slot, x.slots[n] = some g) →
      (∀ m n, Crowded m n ↔ m < n ∧ ∃ g h : Group, x.slots[m] = some g ∧ x.slots[n] = some h ∧ 20 ≤ g.val ∧ 20 ≤ h.val ∧
        (g.val < 24 ↔ h.val < 24) ∧ (n.val - m.val < 3 ∨ 40 - (n.val - m.val) < 3)) →
      (Curves ↔ x.low.ws < x.low.wf ∧ x.mid.ws < x.mid.wf ∧ x.tall.ws < x.tall.wf) →
      (Pumps ↔ ∀ i : Pump, x.pumps[i].mr ≤ x.pumps[i].ps) →
      (∀ g : Group, ¬ Named g → (∀ h, h < g → Named h) → Bad [1, 5, BitVec.ofNat 8 g.val]) ∧
      ((∀ g, Named g) →
        (∀ m n, Crowded m n → (∀ k, k < m → ∀ l, ¬ Crowded k l) → Bad [2, 5, BitVec.ofNat 8 m.val]) ∧
        ((∀ m n, ¬ Crowded m n) →
          (x.low.wf ≤ x.low.ws → Bad [3, 4, 1]) ∧
          (x.low.ws < x.low.wf → x.mid.wf ≤ x.mid.ws → Bad [3, 4, 2]) ∧
          (x.low.ws < x.low.wf → x.mid.ws < x.mid.wf → x.tall.wf ≤ x.tall.ws → Bad [3, 4, 3]) ∧
          (Curves →
            (∀ i : Pump, x.pumps[i].ps < x.pumps[i].mr → (∀ j : Pump, j < i → x.pumps[j].mr ≤ x.pumps[j].ps) →
              Bad [4, 1, BitVec.ofNat 8 i.val]) ∧
            (Pumps → (15360 < x.limits.startLevel → Bad [5, 6, 0]) ∧
              (x.limits.startLevel ≤ 15360 → x.limits.resumeLevel < 1 ∨ 15360 < x.limits.resumeLevel →
                Bad [6, 6, 0])))))) ∧
    (s.cfg.state = .opened → s.cfg.held.Committable →
      ∃ t m, Answers .configCommit s .plantPort 0x42 tag [] t .ok [] ∧ t.tables = s.cfg.held ∧
        t.cfg = ⟨.valid, s.cfg.held⟩ ∧ t.fsc = { s.fsc with pointer := 0 } ∧
        (∀ c : Channel, t.cst.lists[c] = [] ∧ t.cst.shown[c] = s.cfg.held.restValue c) ∧ t.cst.free = 4096 ∧
        (s.withTables s.cfg.held).PoolTested s.mpShow 4096 t.cst.poolLowArmed m ∧
        (s.seq.showState = .unconfigured → t.mpShow = m.place ⟨.showState, 0, s.plu.position, s.clock.now⟩) ∧
        t.cst.skipped = s.cst.skipped ∧
        t.seq.showState = .idle ∧ t.seq.idleCause = (match s.seq.resetOrigin with | .cold => .cold | .restart => .restart) ∧
        (∀ i : Pump, t.pgv.pumps[i].commanded = s.pgv.pumps[i].commanded ∧
          t.pgv.pumps[i].lastCommand = s.pgv.pumps[i].lastCommand ∧
          t.pgv.pumps[i].share = shareFor s.cfg.held.pumps[i].prated s.dlc[i] s.pgv.pumps[i].commanded ∧
          ∀ ceiling, ceiling = s.cfg.held.ceiling i (if s.plm.windDeadline.isSome then s.plm.windSpeed else none) →
            t.pgv.pumps[i].allowed = if ceiling < s.pgv.pumps[i].allowed then ceiling
              else min ceiling (s.pgv.pumps[i].allowed + s.cfg.held.limits.air)) ∧
        t.pgv.total = ledgerTotal t.pgv.pumps ∧ t.pgv.budget = s.pgv.budget ∧
        ∃ n, s.BudgetTested s.mpPlant t.pgv.total t.pgv.excess n ∧
          (s.seq.showState = .unconfigured → t.mpPlant = n.place ⟨.showState, 0, s.plu.position, s.clock.now⟩))

/-- RESTART, in every state: the show is abandoned, cues, claims and rejoins go, lockouts stay, every notice list holds one
SHOW_STATE with detail 0, and the request is answered OK (R19, R28, R56, R77, R186, R193). -/
def Obligations.RestartAbandonsTheShow : Prop :=
  ∀ (s : State) (tag : Byte), s.InExecution .plantPort 0x43 tag [] →
    ∃ t, Answers .restart s .plantPort 0x43 tag [] t .ok [] ∧
      t.seq.showState = (if s.cfg.state = .valid then .idle else .unconfigured) ∧ t.seq.idleCause = .restart ∧
      t.seq.resetOrigin = .restart ∧ t.seq.startDeadline = none ∧ t.seq.endPosition = none ∧ t.seq.fadeEnd = none ∧
      t.seq.fadeCause = none ∧ t.seq.holdCause = none ∧ t.seq.silent = false ∧
      t.plu = { s.plu with position := 0, queue := [], starvation := 0, volume := 1000, lowMarkArmed := true } ∧
      (∀ c : Channel, t.cst.lists[c] = [] ∧ t.cst.shown[c] = s.tables.restValue c ∧
        t.cha.records[c] = ⟨none, s.cha.records[c].lockout, none⟩) ∧
      t.cst.free = 4096 ∧ t.cst.skipped = 0 ∧ t.cst.poolLowArmed = true ∧ t.cha.claimCount = 0 ∧
      ∀ p : Port, (t.port p).notices = [⟨.showState, 0, 0, s.clock.now⟩] ∧ (t.port p).dropped = false ∧
        (t.port p).attention = true ∧ (t.port p).urgent = (s.port p).urgent ∧ (t.port p).bulk = (s.port p).bulk ∧
        (t.port p).executing = (s.port p).executing ∧ (t.port p).outgoing = (s.port p).outgoing ∧
        (t.port p).errorCount = (s.port p).errorCount ∧ (t.port p).admission = (s.port p).admission
end

