-- ==== Sys2Proof/Laws/State.lean ====
section
/-! SUPPORT. The fields of an updated state: one lemma for each field and each update of Machine/Ops.lean. -/

namespace Sys2Proof.Machine

section withSeq

variable (s : State) (x : Seq)

@[simp] theorem State.withSeq_mpShow : (s.withSeq x).mpShow = s.mpShow := rfl
@[simp] theorem State.withSeq_mpPlant : (s.withSeq x).mpPlant = s.mpPlant := rfl
@[simp] theorem State.withSeq_mpConsole : (s.withSeq x).mpConsole = s.mpConsole := rfl
@[simp] theorem State.withSeq_seq : (s.withSeq x).seq = x := rfl
@[simp] theorem State.withSeq_plu : (s.withSeq x).plu = s.plu := rfl
@[simp] theorem State.withSeq_cst : (s.withSeq x).cst = s.cst := rfl
@[simp] theorem State.withSeq_cha : (s.withSeq x).cha = s.cha := rfl
@[simp] theorem State.withSeq_fsc : (s.withSeq x).fsc = s.fsc := rfl
@[simp] theorem State.withSeq_pgv : (s.withSeq x).pgv = s.pgv := rfl
@[simp] theorem State.withSeq_dlc : (s.withSeq x).dlc = s.dlc := rfl
@[simp] theorem State.withSeq_out : (s.withSeq x).out = s.out := rfl
@[simp] theorem State.withSeq_plm : (s.withSeq x).plm = s.plm := rfl
@[simp] theorem State.withSeq_cfg : (s.withSeq x).cfg = s.cfg := rfl
@[simp] theorem State.withSeq_tables : (s.withSeq x).tables = s.tables := rfl
@[simp] theorem State.withSeq_clock : (s.withSeq x).clock = s.clock := rfl
@[simp] theorem State.withSeq_pending : (s.withSeq x).pending = s.pending := rfl
@[simp] theorem State.withSeq_port (p : Port) : (s.withSeq x).port p = s.port p := by cases p <;> rfl

end withSeq

section withPlu

variable (s : State) (x : Plu)

@[simp] theorem State.withPlu_mpShow : (s.withPlu x).mpShow = s.mpShow := rfl
@[simp] theorem State.withPlu_mpPlant : (s.withPlu x).mpPlant = s.mpPlant := rfl
@[simp] theorem State.withPlu_mpConsole : (s.withPlu x).mpConsole = s.mpConsole := rfl
@[simp] theorem State.withPlu_seq : (s.withPlu x).seq = s.seq := rfl
@[simp] theorem State.withPlu_plu : (s.withPlu x).plu = x := rfl
@[simp] theorem State.withPlu_cst : (s.withPlu x).cst = s.cst := rfl
@[simp] theorem State.withPlu_cha : (s.withPlu x).cha = s.cha := rfl
@[simp] theorem State.withPlu_fsc : (s.withPlu x).fsc = s.fsc := rfl
@[simp] theorem State.withPlu_pgv : (s.withPlu x).pgv = s.pgv := rfl
@[simp] theorem State.withPlu_dlc : (s.withPlu x).dlc = s.dlc := rfl
@[simp] theorem State.withPlu_out : (s.withPlu x).out = s.out := rfl
@[simp] theorem State.withPlu_plm : (s.withPlu x).plm = s.plm := rfl
@[simp] theorem State.withPlu_cfg : (s.withPlu x).cfg = s.cfg := rfl
@[simp] theorem State.withPlu_tables : (s.withPlu x).tables = s.tables := rfl
@[simp] theorem State.withPlu_clock : (s.withPlu x).clock = s.clock := rfl
@[simp] theorem State.withPlu_pending : (s.withPlu x).pending = s.pending := rfl
@[simp] theorem State.withPlu_port (p : Port) : (s.withPlu x).port p = s.port p := by cases p <;> rfl

end withPlu

section withCst

variable (s : State) (x : Cst)

@[simp] theorem State.withCst_mpShow : (s.withCst x).mpShow = s.mpShow := rfl
@[simp] theorem State.withCst_mpPlant : (s.withCst x).mpPlant = s.mpPlant := rfl
@[simp] theorem State.withCst_mpConsole : (s.withCst x).mpConsole = s.mpConsole := rfl
@[simp] theorem State.withCst_seq : (s.withCst x).seq = s.seq := rfl
@[simp] theorem State.withCst_plu : (s.withCst x).plu = s.plu := rfl
@[simp] theorem State.withCst_cst : (s.withCst x).cst = x := rfl
@[simp] theorem State.withCst_cha : (s.withCst x).cha = s.cha := rfl
@[simp] theorem State.withCst_fsc : (s.withCst x).fsc = s.fsc := rfl
@[simp] theorem State.withCst_pgv : (s.withCst x).pgv = s.pgv := rfl
@[simp] theorem State.withCst_dlc : (s.withCst x).dlc = s.dlc := rfl
@[simp] theorem State.withCst_out : (s.withCst x).out = s.out := rfl
@[simp] theorem State.withCst_plm : (s.withCst x).plm = s.plm := rfl
@[simp] theorem State.withCst_cfg : (s.withCst x).cfg = s.cfg := rfl
@[simp] theorem State.withCst_tables : (s.withCst x).tables = s.tables := rfl
@[simp] theorem State.withCst_clock : (s.withCst x).clock = s.clock := rfl
@[simp] theorem State.withCst_pending : (s.withCst x).pending = s.pending := rfl
@[simp] theorem State.withCst_port (p : Port) : (s.withCst x).port p = s.port p := by cases p <;> rfl

end withCst

section withCha

variable (s : State) (x : Cha)

@[simp] theorem State.withCha_mpShow : (s.withCha x).mpShow = s.mpShow := rfl
@[simp] theorem State.withCha_mpPlant : (s.withCha x).mpPlant = s.mpPlant := rfl
@[simp] theorem State.withCha_mpConsole : (s.withCha x).mpConsole = s.mpConsole := rfl
@[simp] theorem State.withCha_seq : (s.withCha x).seq = s.seq := rfl
@[simp] theorem State.withCha_plu : (s.withCha x).plu = s.plu := rfl
@[simp] theorem State.withCha_cst : (s.withCha x).cst = s.cst := rfl
@[simp] theorem State.withCha_cha : (s.withCha x).cha = x := rfl
@[simp] theorem State.withCha_fsc : (s.withCha x).fsc = s.fsc := rfl
@[simp] theorem State.withCha_pgv : (s.withCha x).pgv = s.pgv := rfl
@[simp] theorem State.withCha_dlc : (s.withCha x).dlc = s.dlc := rfl
@[simp] theorem State.withCha_out : (s.withCha x).out = s.out := rfl
@[simp] theorem State.withCha_plm : (s.withCha x).plm = s.plm := rfl
@[simp] theorem State.withCha_cfg : (s.withCha x).cfg = s.cfg := rfl
@[simp] theorem State.withCha_tables : (s.withCha x).tables = s.tables := rfl
@[simp] theorem State.withCha_clock : (s.withCha x).clock = s.clock := rfl
@[simp] theorem State.withCha_pending : (s.withCha x).pending = s.pending := rfl
@[simp] theorem State.withCha_port (p : Port) : (s.withCha x).port p = s.port p := by cases p <;> rfl

end withCha

section withFsc

variable (s : State) (x : Fsc)

@[simp] theorem State.withFsc_mpShow : (s.withFsc x).mpShow = s.mpShow := rfl
@[simp] theorem State.withFsc_mpPlant : (s.withFsc x).mpPlant = s.mpPlant := rfl
@[simp] theorem State.withFsc_mpConsole : (s.withFsc x).mpConsole = s.mpConsole := rfl
@[simp] theorem State.withFsc_seq : (s.withFsc x).seq = s.seq := rfl
@[simp] theorem State.withFsc_plu : (s.withFsc x).plu = s.plu := rfl
@[simp] theorem State.withFsc_cst : (s.withFsc x).cst = s.cst := rfl
@[simp] theorem State.withFsc_cha : (s.withFsc x).cha = s.cha := rfl
@[simp] theorem State.withFsc_fsc : (s.withFsc x).fsc = x := rfl
@[simp] theorem State.withFsc_pgv : (s.withFsc x).pgv = s.pgv := rfl
@[simp] theorem State.withFsc_dlc : (s.withFsc x).dlc = s.dlc := rfl
@[simp] theorem State.withFsc_out : (s.withFsc x).out = s.out := rfl
@[simp] theorem State.withFsc_plm : (s.withFsc x).plm = s.plm := rfl
@[simp] theorem State.withFsc_cfg : (s.withFsc x).cfg = s.cfg := rfl
@[simp] theorem State.withFsc_tables : (s.withFsc x).tables = s.tables := rfl
@[simp] theorem State.withFsc_clock : (s.withFsc x).clock = s.clock := rfl
@[simp] theorem State.withFsc_pending : (s.withFsc x).pending = s.pending := rfl
@[simp] theorem State.withFsc_port (p : Port) : (s.withFsc x).port p = s.port p := by cases p <;> rfl

end withFsc

section withPgv

variable (s : State) (x : Pgv)

@[simp] theorem State.withPgv_mpShow : (s.withPgv x).mpShow = s.mpShow := rfl
@[simp] theorem State.withPgv_mpPlant : (s.withPgv x).mpPlant = s.mpPlant := rfl
@[simp] theorem State.withPgv_mpConsole : (s.withPgv x).mpConsole = s.mpConsole := rfl
@[simp] theorem State.withPgv_seq : (s.withPgv x).seq = s.seq := rfl
@[simp] theorem State.withPgv_plu : (s.withPgv x).plu = s.plu := rfl
@[simp] theorem State.withPgv_cst : (s.withPgv x).cst = s.cst := rfl
@[simp] theorem State.withPgv_cha : (s.withPgv x).cha = s.cha := rfl
@[simp] theorem State.withPgv_fsc : (s.withPgv x).fsc = s.fsc := rfl
@[simp] theorem State.withPgv_pgv : (s.withPgv x).pgv = x := rfl
@[simp] theorem State.withPgv_dlc : (s.withPgv x).dlc = s.dlc := rfl
@[simp] theorem State.withPgv_out : (s.withPgv x).out = s.out := rfl
@[simp] theorem State.withPgv_plm : (s.withPgv x).plm = s.plm := rfl
@[simp] theorem State.withPgv_cfg : (s.withPgv x).cfg = s.cfg := rfl
@[simp] theorem State.withPgv_tables : (s.withPgv x).tables = s.tables := rfl
@[simp] theorem State.withPgv_clock : (s.withPgv x).clock = s.clock := rfl
@[simp] theorem State.withPgv_pending : (s.withPgv x).pending = s.pending := rfl
@[simp] theorem State.withPgv_port (p : Port) : (s.withPgv x).port p = s.port p := by cases p <;> rfl

end withPgv

section withDlc

variable (s : State) (x : Vector DriveRecord 16)

@[simp] theorem State.withDlc_mpShow : (s.withDlc x).mpShow = s.mpShow := rfl
@[simp] theorem State.withDlc_mpPlant : (s.withDlc x).mpPlant = s.mpPlant := rfl
@[simp] theorem State.withDlc_mpConsole : (s.withDlc x).mpConsole = s.mpConsole := rfl
@[simp] theorem State.withDlc_seq : (s.withDlc x).seq = s.seq := rfl
@[simp] theorem State.withDlc_plu : (s.withDlc x).plu = s.plu := rfl
@[simp] theorem State.withDlc_cst : (s.withDlc x).cst = s.cst := rfl
@[simp] theorem State.withDlc_cha : (s.withDlc x).cha = s.cha := rfl
@[simp] theorem State.withDlc_fsc : (s.withDlc x).fsc = s.fsc := rfl
@[simp] theorem State.withDlc_pgv : (s.withDlc x).pgv = s.pgv := rfl
@[simp] theorem State.withDlc_dlc : (s.withDlc x).dlc = x := rfl
@[simp] theorem State.withDlc_out : (s.withDlc x).out = s.out := rfl
@[simp] theorem State.withDlc_plm : (s.withDlc x).plm = s.plm := rfl
@[simp] theorem State.withDlc_cfg : (s.withDlc x).cfg = s.cfg := rfl
@[simp] theorem State.withDlc_tables : (s.withDlc x).tables = s.tables := rfl
@[simp] theorem State.withDlc_clock : (s.withDlc x).clock = s.clock := rfl
@[simp] theorem State.withDlc_pending : (s.withDlc x).pending = s.pending := rfl
@[simp] theorem State.withDlc_port (p : Port) : (s.withDlc x).port p = s.port p := by cases p <;> rfl

end withDlc

section withOut

variable (s : State) (x : Out)

@[simp] theorem State.withOut_mpShow : (s.withOut x).mpShow = s.mpShow := rfl
@[simp] theorem State.withOut_mpPlant : (s.withOut x).mpPlant = s.mpPlant := rfl
@[simp] theorem State.withOut_mpConsole : (s.withOut x).mpConsole = s.mpConsole := rfl
@[simp] theorem State.withOut_seq : (s.withOut x).seq = s.seq := rfl
@[simp] theorem State.withOut_plu : (s.withOut x).plu = s.plu := rfl
@[simp] theorem State.withOut_cst : (s.withOut x).cst = s.cst := rfl
@[simp] theorem State.withOut_cha : (s.withOut x).cha = s.cha := rfl
@[simp] theorem State.withOut_fsc : (s.withOut x).fsc = s.fsc := rfl
@[simp] theorem State.withOut_pgv : (s.withOut x).pgv = s.pgv := rfl
@[simp] theorem State.withOut_dlc : (s.withOut x).dlc = s.dlc := rfl
@[simp] theorem State.withOut_out : (s.withOut x).out = x := rfl
@[simp] theorem State.withOut_plm : (s.withOut x).plm = s.plm := rfl
@[simp] theorem State.withOut_cfg : (s.withOut x).cfg = s.cfg := rfl
@[simp] theorem State.withOut_tables : (s.withOut x).tables = s.tables := rfl
@[simp] theorem State.withOut_clock : (s.withOut x).clock = s.clock := rfl
@[simp] theorem State.withOut_pending : (s.withOut x).pending = s.pending := rfl
@[simp] theorem State.withOut_port (p : Port) : (s.withOut x).port p = s.port p := by cases p <;> rfl

end withOut

section withPlm

variable (s : State) (x : Plm)

@[simp] theorem State.withPlm_mpShow : (s.withPlm x).mpShow = s.mpShow := rfl
@[simp] theorem State.withPlm_mpPlant : (s.withPlm x).mpPlant = s.mpPlant := rfl
@[simp] theorem State.withPlm_mpConsole : (s.withPlm x).mpConsole = s.mpConsole := rfl
@[simp] theorem State.withPlm_seq : (s.withPlm x).seq = s.seq := rfl
@[simp] theorem State.withPlm_plu : (s.withPlm x).plu = s.plu := rfl
@[simp] theorem State.withPlm_cst : (s.withPlm x).cst = s.cst := rfl
@[simp] theorem State.withPlm_cha : (s.withPlm x).cha = s.cha := rfl
@[simp] theorem State.withPlm_fsc : (s.withPlm x).fsc = s.fsc := rfl
@[simp] theorem State.withPlm_pgv : (s.withPlm x).pgv = s.pgv := rfl
@[simp] theorem State.withPlm_dlc : (s.withPlm x).dlc = s.dlc := rfl
@[simp] theorem State.withPlm_out : (s.withPlm x).out = s.out := rfl
@[simp] theorem State.withPlm_plm : (s.withPlm x).plm = x := rfl
@[simp] theorem State.withPlm_cfg : (s.withPlm x).cfg = s.cfg := rfl
@[simp] theorem State.withPlm_tables : (s.withPlm x).tables = s.tables := rfl
@[simp] theorem State.withPlm_clock : (s.withPlm x).clock = s.clock := rfl
@[simp] theorem State.withPlm_pending : (s.withPlm x).pending = s.pending := rfl
@[simp] theorem State.withPlm_port (p : Port) : (s.withPlm x).port p = s.port p := by cases p <;> rfl

end withPlm

section withCfg

variable (s : State) (x : Cfg)

@[simp] theorem State.withCfg_mpShow : (s.withCfg x).mpShow = s.mpShow := rfl
@[simp] theorem State.withCfg_mpPlant : (s.withCfg x).mpPlant = s.mpPlant := rfl
@[simp] theorem State.withCfg_mpConsole : (s.withCfg x).mpConsole = s.mpConsole := rfl
@[simp] theorem State.withCfg_seq : (s.withCfg x).seq = s.seq := rfl
@[simp] theorem State.withCfg_plu : (s.withCfg x).plu = s.plu := rfl
@[simp] theorem State.withCfg_cst : (s.withCfg x).cst = s.cst := rfl
@[simp] theorem State.withCfg_cha : (s.withCfg x).cha = s.cha := rfl
@[simp] theorem State.withCfg_fsc : (s.withCfg x).fsc = s.fsc := rfl
@[simp] theorem State.withCfg_pgv : (s.withCfg x).pgv = s.pgv := rfl
@[simp] theorem State.withCfg_dlc : (s.withCfg x).dlc = s.dlc := rfl
@[simp] theorem State.withCfg_out : (s.withCfg x).out = s.out := rfl
@[simp] theorem State.withCfg_plm : (s.withCfg x).plm = s.plm := rfl
@[simp] theorem State.withCfg_cfg : (s.withCfg x).cfg = x := rfl
@[simp] theorem State.withCfg_tables : (s.withCfg x).tables = s.tables := rfl
@[simp] theorem State.withCfg_clock : (s.withCfg x).clock = s.clock := rfl
@[simp] theorem State.withCfg_pending : (s.withCfg x).pending = s.pending := rfl
@[simp] theorem State.withCfg_port (p : Port) : (s.withCfg x).port p = s.port p := by cases p <;> rfl

end withCfg

section withTables

variable (s : State) (x : Tables)

@[simp] theorem State.withTables_mpShow : (s.withTables x).mpShow = s.mpShow := rfl
@[simp] theorem State.withTables_mpPlant : (s.withTables x).mpPlant = s.mpPlant := rfl
@[simp] theorem State.withTables_mpConsole : (s.withTables x).mpConsole = s.mpConsole := rfl
@[simp] theorem State.withTables_seq : (s.withTables x).seq = s.seq := rfl
@[simp] theorem State.withTables_plu : (s.withTables x).plu = s.plu := rfl
@[simp] theorem State.withTables_cst : (s.withTables x).cst = s.cst := rfl
@[simp] theorem State.withTables_cha : (s.withTables x).cha = s.cha := rfl
@[simp] theorem State.withTables_fsc : (s.withTables x).fsc = s.fsc := rfl
@[simp] theorem State.withTables_pgv : (s.withTables x).pgv = s.pgv := rfl
@[simp] theorem State.withTables_dlc : (s.withTables x).dlc = s.dlc := rfl
@[simp] theorem State.withTables_out : (s.withTables x).out = s.out := rfl
@[simp] theorem State.withTables_plm : (s.withTables x).plm = s.plm := rfl
@[simp] theorem State.withTables_cfg : (s.withTables x).cfg = s.cfg := rfl
@[simp] theorem State.withTables_tables : (s.withTables x).tables = x := rfl
@[simp] theorem State.withTables_clock : (s.withTables x).clock = s.clock := rfl
@[simp] theorem State.withTables_pending : (s.withTables x).pending = s.pending := rfl
@[simp] theorem State.withTables_port (p : Port) : (s.withTables x).port p = s.port p := by cases p <;> rfl

end withTables

section withClock

variable (s : State) (x : Clock)

@[simp] theorem State.withClock_mpShow : (s.withClock x).mpShow = s.mpShow := rfl
@[simp] theorem State.withClock_mpPlant : (s.withClock x).mpPlant = s.mpPlant := rfl
@[simp] theorem State.withClock_mpConsole : (s.withClock x).mpConsole = s.mpConsole := rfl
@[simp] theorem State.withClock_seq : (s.withClock x).seq = s.seq := rfl
@[simp] theorem State.withClock_plu : (s.withClock x).plu = s.plu := rfl
@[simp] theorem State.withClock_cst : (s.withClock x).cst = s.cst := rfl
@[simp] theorem State.withClock_cha : (s.withClock x).cha = s.cha := rfl
@[simp] theorem State.withClock_fsc : (s.withClock x).fsc = s.fsc := rfl
@[simp] theorem State.withClock_pgv : (s.withClock x).pgv = s.pgv := rfl
@[simp] theorem State.withClock_dlc : (s.withClock x).dlc = s.dlc := rfl
@[simp] theorem State.withClock_out : (s.withClock x).out = s.out := rfl
@[simp] theorem State.withClock_plm : (s.withClock x).plm = s.plm := rfl
@[simp] theorem State.withClock_cfg : (s.withClock x).cfg = s.cfg := rfl
@[simp] theorem State.withClock_tables : (s.withClock x).tables = s.tables := rfl
@[simp] theorem State.withClock_clock : (s.withClock x).clock = x := rfl
@[simp] theorem State.withClock_pending : (s.withClock x).pending = s.pending := rfl
@[simp] theorem State.withClock_port (p : Port) : (s.withClock x).port p = s.port p := by cases p <;> rfl

end withClock

section withPort

variable (s : State) (p q : Port) (m : MasterPort)

@[simp] theorem State.withPort_port_self : (s.withPort p m).port p = m := by cases p <;> rfl

theorem State.withPort_port : (s.withPort p m).port q = if q = p then m else s.port q := by cases p <;> cases q <;> rfl

@[simp] theorem State.withPort_seq : (s.withPort p m).seq = s.seq := by cases p <;> rfl
@[simp] theorem State.withPort_plu : (s.withPort p m).plu = s.plu := by cases p <;> rfl
@[simp] theorem State.withPort_cst : (s.withPort p m).cst = s.cst := by cases p <;> rfl
@[simp] theorem State.withPort_cha : (s.withPort p m).cha = s.cha := by cases p <;> rfl
@[simp] theorem State.withPort_fsc : (s.withPort p m).fsc = s.fsc := by cases p <;> rfl
@[simp] theorem State.withPort_pgv : (s.withPort p m).pgv = s.pgv := by cases p <;> rfl
@[simp] theorem State.withPort_dlc : (s.withPort p m).dlc = s.dlc := by cases p <;> rfl
@[simp] theorem State.withPort_out : (s.withPort p m).out = s.out := by cases p <;> rfl
@[simp] theorem State.withPort_plm : (s.withPort p m).plm = s.plm := by cases p <;> rfl
@[simp] theorem State.withPort_cfg : (s.withPort p m).cfg = s.cfg := by cases p <;> rfl
@[simp] theorem State.withPort_tables : (s.withPort p m).tables = s.tables := by cases p <;> rfl
@[simp] theorem State.withPort_clock : (s.withPort p m).clock = s.clock := by cases p <;> rfl
@[simp] theorem State.withPort_pending : (s.withPort p m).pending = s.pending := by cases p <;> rfl

end withPort

section withLine

variable (s : State) (l : Line) (x : LineState)

@[simp] theorem State.withLine_line_self : (s.withLine l x).fsc.line l = x := by cases l <;> rfl

theorem State.withLine_line (k : Line) : (s.withLine l x).fsc.line k = if k = l then x else s.fsc.line k := by
  cases l <;> cases k <;> rfl

@[simp] theorem State.withLine_mpShow : (s.withLine l x).mpShow = s.mpShow := rfl
@[simp] theorem State.withLine_mpPlant : (s.withLine l x).mpPlant = s.mpPlant := rfl
@[simp] theorem State.withLine_mpConsole : (s.withLine l x).mpConsole = s.mpConsole := rfl
@[simp] theorem State.withLine_seq : (s.withLine l x).seq = s.seq := rfl
@[simp] theorem State.withLine_plu : (s.withLine l x).plu = s.plu := rfl
@[simp] theorem State.withLine_cst : (s.withLine l x).cst = s.cst := rfl
@[simp] theorem State.withLine_cha : (s.withLine l x).cha = s.cha := rfl
@[simp] theorem State.withLine_pgv : (s.withLine l x).pgv = s.pgv := rfl
@[simp] theorem State.withLine_dlc : (s.withLine l x).dlc = s.dlc := rfl
@[simp] theorem State.withLine_out : (s.withLine l x).out = s.out := rfl
@[simp] theorem State.withLine_plm : (s.withLine l x).plm = s.plm := rfl
@[simp] theorem State.withLine_cfg : (s.withLine l x).cfg = s.cfg := rfl
@[simp] theorem State.withLine_tables : (s.withLine l x).tables = s.tables := rfl
@[simp] theorem State.withLine_clock : (s.withLine l x).clock = s.clock := rfl
@[simp] theorem State.withLine_pending : (s.withLine l x).pending = s.pending := rfl
@[simp] theorem State.withLine_fsc_pointer : (s.withLine l x).fsc.pointer = s.fsc.pointer := by cases l <;> rfl
@[simp] theorem State.withLine_fsc_overruns : (s.withLine l x).fsc.overruns = s.fsc.overruns := by cases l <;> rfl
@[simp] theorem State.withLine_fsc_management : (s.withLine l x).fsc.management = s.fsc.management := by cases l <;> rfl
@[simp] theorem State.withLine_port (p : Port) : (s.withLine l x).port p = s.port p := by cases p <;> rfl

end withLine

section raise

variable (s : State) (k : NoticeKind) (subject detail : Nat)

theorem State.raise_port (p : Port) : (s.raise k subject detail).port p =
    if k.raisedTo p then (s.port p).place ⟨k, subject, detail, s.clock.now⟩ else s.port p := by
  cases p <;> rfl

@[simp] theorem State.raise_seq : (s.raise k subject detail).seq = s.seq := rfl
@[simp] theorem State.raise_plu : (s.raise k subject detail).plu = s.plu := rfl
@[simp] theorem State.raise_cst : (s.raise k subject detail).cst = s.cst := rfl
@[simp] theorem State.raise_cha : (s.raise k subject detail).cha = s.cha := rfl
@[simp] theorem State.raise_fsc : (s.raise k subject detail).fsc = s.fsc := rfl
@[simp] theorem State.raise_pgv : (s.raise k subject detail).pgv = s.pgv := rfl
@[simp] theorem State.raise_dlc : (s.raise k subject detail).dlc = s.dlc := rfl
@[simp] theorem State.raise_out : (s.raise k subject detail).out = s.out := rfl
@[simp] theorem State.raise_plm : (s.raise k subject detail).plm = s.plm := rfl
@[simp] theorem State.raise_cfg : (s.raise k subject detail).cfg = s.cfg := rfl
@[simp] theorem State.raise_tables : (s.raise k subject detail).tables = s.tables := rfl
@[simp] theorem State.raise_clock : (s.raise k subject detail).clock = s.clock := rfl
@[simp] theorem State.raise_pending : (s.raise k subject detail).pending = s.pending := rfl

end raise

section answer

variable (s : State) (p : Port) (q : Request) (r : Result) (body : List Byte)

@[simp] theorem State.answer_port_self : (s.answer p q r body).port p =
    { s.port p with
      executing := none
      outgoing := (s.port p).outgoing ++ [⟨q.kind, q.tag, r, body⟩]
      attention := true } := by
  simp [State.answer, MasterPort.respond, MasterPort.settle]

theorem State.answer_port_other {o : Port} (h : o ≠ p) : (s.answer p q r body).port o = s.port o := by
  simp [State.answer, State.withPort_port, h]

@[simp] theorem State.answer_seq : (s.answer p q r body).seq = s.seq := by simp [State.answer]
@[simp] theorem State.answer_plu : (s.answer p q r body).plu = s.plu := by simp [State.answer]
@[simp] theorem State.answer_cst : (s.answer p q r body).cst = s.cst := by simp [State.answer]
@[simp] theorem State.answer_cha : (s.answer p q r body).cha = s.cha := by simp [State.answer]
@[simp] theorem State.answer_fsc : (s.answer p q r body).fsc = s.fsc := by simp [State.answer]
@[simp] theorem State.answer_pgv : (s.answer p q r body).pgv = s.pgv := by simp [State.answer]
@[simp] theorem State.answer_dlc : (s.answer p q r body).dlc = s.dlc := by simp [State.answer]
@[simp] theorem State.answer_out : (s.answer p q r body).out = s.out := by simp [State.answer]
@[simp] theorem State.answer_plm : (s.answer p q r body).plm = s.plm := by simp [State.answer]
@[simp] theorem State.answer_cfg : (s.answer p q r body).cfg = s.cfg := by simp [State.answer]
@[simp] theorem State.answer_tables : (s.answer p q r body).tables = s.tables := by simp [State.answer]
@[simp] theorem State.answer_clock : (s.answer p q r body).clock = s.clock := by simp [State.answer]
@[simp] theorem State.answer_pending : (s.answer p q r body).pending = s.pending := by simp [State.answer]

end answer

section settle

variable (m : MasterPort)

@[simp] theorem MasterPort.settle_urgent : m.settle.urgent = m.urgent := rfl
@[simp] theorem MasterPort.settle_bulk : m.settle.bulk = m.bulk := rfl
@[simp] theorem MasterPort.settle_executing : m.settle.executing = m.executing := rfl
@[simp] theorem MasterPort.settle_outgoing : m.settle.outgoing = m.outgoing := rfl
@[simp] theorem MasterPort.settle_notices : m.settle.notices = m.notices := rfl
@[simp] theorem MasterPort.settle_dropped : m.settle.dropped = m.dropped := rfl
@[simp] theorem MasterPort.settle_admission : m.settle.admission = m.admission := rfl
@[simp] theorem MasterPort.settle_admissionTag : m.settle.admissionTag = m.admissionTag := rfl
@[simp] theorem MasterPort.settle_errorCount : m.settle.errorCount = m.errorCount := rfl
@[simp] theorem MasterPort.settle_transaction : m.settle.transaction = m.transaction := rfl

end settle

end Sys2Proof.Machine
end

