-- ==== Sys2Proof/Laws/Writes.lean ====
section
/-! SUPPORT. What each shared operation may write: one lemma for each, with every part of the state that is not named in it left
as it was. -/

namespace Sys2Proof.Machine

/-! ## Differing within some parts -/

theorem State.Within.refl (w : List Part) (s : State) : s.Within w s := by
  refine ⟨fun a _ => ?_⟩
  cases a <;> rfl

theorem State.Within.trans {w : List Part} {s t u : State} (h : s.Within w t) (k : t.Within w u) : s.Within w u := by
  refine ⟨fun a ha => ?_⟩
  have h1 := h.same a ha
  have h2 := k.same a ha
  cases a <;> exact h2.trans h1

theorem State.Within.mono {v w : List Part} {s t : State} (h : s.Within v t) (sub : ∀ a ∈ v, a ∈ w) : s.Within w t :=
  ⟨fun a ha => h.same a fun hv => ha (sub a hv)⟩

/-- Two operations in turn: together they differ within any parts that hold those of both. -/
theorem State.Within.next {v v' w : List Part} {s t u : State} (h : s.Within v t) (k : t.Within v' u)
    (sub : ∀ a ∈ v ++ v', a ∈ w) : s.Within w u :=
  (h.mono fun a ha => sub a (List.mem_append_left _ ha)).trans (k.mono fun a ha => sub a (List.mem_append_right _ ha))

theorem State.Within.ite {w : List Part} {s t u : State} {c : Prop} [Decidable c] (h : s.Within w t) (k : s.Within w u) :
    s.Within w (if c then t else u) := by
  split <;> assumption

/-- A fold of operations that each stay within some parts. -/
theorem State.Within.foldl {α : Type} {w : List Part} {f : State → α → State} (h : ∀ (s : State) a, s.Within w (f s a)) (l : List α)
    (s : State) : s.Within w (l.foldl f s) := by
  induction l generalizing s with
  | nil => exact .refl w s
  | cons a l ih => exact (h s a).trans (ih _)

section updates

variable (s : State)

theorem State.withSeq_within (x : Seq) : s.Within [.seq] (s.withSeq x) := by
  refine ⟨fun a ha => ?_⟩; cases a <;> simp_all [State.sameAt]

theorem State.withPlu_within (x : Plu) : s.Within [.plu] (s.withPlu x) := by
  refine ⟨fun a ha => ?_⟩; cases a <;> simp_all [State.sameAt]

theorem State.withCst_within (x : Cst) : s.Within [.cst] (s.withCst x) := by
  refine ⟨fun a ha => ?_⟩; cases a <;> simp_all [State.sameAt]

theorem State.withCha_within (x : Cha) : s.Within [.cha] (s.withCha x) := by
  refine ⟨fun a ha => ?_⟩; cases a <;> simp_all [State.sameAt]

theorem State.withFsc_within (x : Fsc) : s.Within [.fsc] (s.withFsc x) := by
  refine ⟨fun a ha => ?_⟩; cases a <;> simp_all [State.sameAt]

theorem State.withPgv_within (x : Pgv) : s.Within [.pgv] (s.withPgv x) := by
  refine ⟨fun a ha => ?_⟩; cases a <;> simp_all [State.sameAt]

theorem State.withDlc_within (x : Vector DriveRecord 16) : s.Within [.dlc] (s.withDlc x) := by
  refine ⟨fun a ha => ?_⟩; cases a <;> simp_all [State.sameAt]

theorem State.withOut_within (x : Out) : s.Within [.out] (s.withOut x) := by
  refine ⟨fun a ha => ?_⟩; cases a <;> simp_all [State.sameAt]

theorem State.withPlm_within (x : Plm) : s.Within [.plm] (s.withPlm x) := by
  refine ⟨fun a ha => ?_⟩; cases a <;> simp_all [State.sameAt]

theorem State.withCfg_within (x : Cfg) : s.Within [.cfg] (s.withCfg x) := by
  refine ⟨fun a ha => ?_⟩; cases a <;> simp_all [State.sameAt]

theorem State.withTables_within (x : Tables) : s.Within [.tables] (s.withTables x) := by
  refine ⟨fun a ha => ?_⟩; cases a <;> simp_all [State.sameAt]

theorem State.withClock_within (x : Clock) : s.Within [.clock] (s.withClock x) := by
  refine ⟨fun a ha => ?_⟩; cases a <;> simp_all [State.sameAt]

theorem State.withLine_within (l : Line) (x : LineState) : s.Within [.fsc] (s.withLine l x) := State.withFsc_within ..

theorem State.withPort_within (p : Port) (m : MasterPort) : s.Within [portPart p] (s.withPort p m) := by
  refine ⟨fun a ha => ?_⟩; cases p <;> cases a <;> simp_all [State.sameAt, State.withPort, portPart]

/-- A notice is placed on the lists of the ports it is raised to, and nowhere else (R181). -/
theorem State.raise_within (k : NoticeKind) (subject detail : Nat) {w : List Part}
    (h : ∀ p ∈ [Port.showPort, .plantPort, .consolePort], k.raisedTo p = true → portPart p ∈ w) :
    s.Within w (s.raise k subject detail) := by
  have h1 := h .showPort (by simp)
  have h2 := h .plantPort (by simp)
  have h3 := h .consolePort (by simp)
  refine ⟨fun a ha => ?_⟩
  cases a <;> simp_all [State.sameAt, State.raise, portPart]

theorem State.answer_within (p : Port) (q : Request) (r : Result) (body : List Byte) :
    s.Within [portPart p] (s.answer p q r body) := State.withPort_within ..

/-- A request served by its owning block writes what the block writes, and its port. -/
theorem State.serveWhen_within {w : List Part} (p : Port) (kind : Byte) (mine : List Byte → Bool)
    {take : List Byte → State → Reply} (h : ∀ body, s.Within w (take body s).1) :
    s.Within (portPart p :: w) (s.serveWhen p kind mine take) := by
  unfold State.serveWhen
  split
  · split
    · exact (h _).next (State.answer_within ..) (by simp [or_comm])
    · exact .refl ..
  · exact .refl ..

theorem State.serve_within {w : List Part} (p : Port) (kind : Byte) {take : List Byte → State → Reply}
    (h : ∀ body, s.Within w (take body s).1) : s.Within (portPart p :: w) (s.serve p kind take) :=
  s.serveWhen_within p kind _ h

theorem bodiless_within {w : List Part} {take : State → Reply} (h : s.Within w (take s).1) (body : List Byte) :
    s.Within w (bodiless take body s).1 := by
  unfold bodiless
  split
  · exact h
  · exact .refl ..

end updates

/-! ## Flags -/

section flags

variable (s : State)

theorem State.lowMarkTest_within : s.Within [.mpShow, .plu] s.lowMarkTest := by
  unfold State.lowMarkTest
  split
  · exact (State.withPlu_within ..).next (State.raise_within (w := [.mpShow]) _ _ _ _ (by decide)) (by simp)
  · exact .refl ..

theorem State.lowMarkRearm_within : s.Within [.plu] s.lowMarkRearm := by
  unfold State.lowMarkRearm
  split
  · exact State.withPlu_within ..
  · exact .refl ..

theorem State.poolLowTest_within : s.Within [.mpShow, .cst] s.poolLowTest := by
  unfold State.poolLowTest
  split
  · exact (State.withCst_within ..).next (State.raise_within (w := [.mpShow]) _ _ _ _ (by decide)) (by simp)
  · split
    · exact (State.withCst_within ..).mono (by simp)
    · exact .refl ..

theorem State.budgetTest_within : s.Within [.mpPlant, .pgv] s.budgetTest := by
  unfold State.budgetTest
  split
  · exact (State.withPgv_within ..).next (State.raise_within (w := [.mpPlant]) _ _ _ _ (by decide)) (by simp)
  · split
    · exact (State.withPgv_within ..).next (State.raise_within (w := [.mpPlant]) _ _ _ _ (by decide)) (by simp)
    · exact .refl ..

theorem State.lowWaterTest_within (n : Nat) : s.Within [.mpShow, .mpPlant, .plm] (s.lowWaterTest n) := by
  unfold State.lowWaterTest
  split
  · exact (State.withPlm_within ..).next (State.raise_within (w := [.mpShow, .mpPlant]) _ _ _ _ (by decide)) (by simp)
  · split
    · exact (State.withPlm_within ..).next (State.raise_within (w := [.mpShow, .mpPlant]) _ _ _ _ (by decide)) (by simp)
    · exact .refl ..

end flags

/-! ## Governor -/

section governor

variable (s : State) (i : Pump)

theorem State.withPump_within (p : PumpState) : s.Within [.pgv] (s.withPump i p) := State.withPgv_within ..

theorem State.driveReport_within : s.Within [.mpPlant, .pgv] (s.driveReport i) :=
  (State.withPump_within ..).next (State.budgetTest_within _) (by simp)

theorem State.driveReportAtRest_within : s.Within [.mpPlant, .pgv] (s.driveReportAtRest i) :=
  (State.withPump_within ..).next (State.budgetTest_within _) (by simp)

theorem State.adopt_within (speed : Nat) : s.Within [.mpPlant, .pgv] (s.adopt i speed) :=
  (State.withPump_within ..).next (State.budgetTest_within _) (by simp)

theorem State.updateAllowed_within : s.Within [.pgv] s.updateAllowed := State.withPgv_within ..

theorem State.recomputeShares_within : s.Within [.pgv] s.recomputeShares := State.withPgv_within ..

theorem State.computeCommand_within (demand : Nat) : s.Within [.mpPlant, .pgv] (s.computeCommand i demand) := by
  unfold State.computeCommand
  simp only
  split
  · exact (State.withPump_within ..).next (State.budgetTest_within _) (by simp)
  · exact (State.withPgv_within ..).mono (by simp)

end governor

/-! ## Drive line -/

section driveLine

variable (s : State) (i : Pump)

theorem State.withDrive_within (d : DriveRecord) : s.Within [.dlc] (s.withDrive i d) := State.withDlc_within ..

theorem State.changeDrive_within (d : DriveRecord) : s.Within [.mpPlant, .dlc, .pgv] (s.changeDrive i d) :=
  (State.withDrive_within ..).next (State.driveReport_within _ _) (by simp)

theorem State.takePowerOff_within : s.Within [.mpPlant, .dlc, .pgv] (s.takePowerOff i) := by
  unfold State.takePowerOff
  simp only
  split <;> first | exact State.changeDrive_within .. | exact .refl ..

theorem State.holdOff_within : s.Within [.mpPlant, .dlc, .pgv] (s.holdOff i) :=
  .ite (s.takePowerOff_within i) (.refl ..)

theorem State.takePowerOn_within : s.Within [.mpPlant, .dlc, .pgv] (s.takePowerOn i) := by
  unfold State.takePowerOn
  simp only
  split <;> try split
  all_goals first | exact State.changeDrive_within .. | exact .refl ..

theorem State.armPowerOnFor_within : s.Within [.mpPlant, .dlc, .pgv] (s.armPowerOnFor i) :=
  .ite (State.changeDrive_within ..) (.refl ..)

theorem State.armPowerOn_within : s.Within [.mpPlant, .dlc, .pgv] s.armPowerOn :=
  State.Within.foldl State.armPowerOnFor_within _ _

theorem State.loseDrive_within : s.Within [.mpShow, .mpPlant, .dlc, .pgv] (s.loseDrive i) :=
  (State.changeDrive_within ..).next (State.raise_within (w := [.mpShow, .mpPlant]) _ _ _ _ (by decide)) (by simp)

theorem State.missReply_within : s.Within [.mpShow, .mpPlant, .dlc, .pgv] (s.missReply i) :=
  .ite ((State.withDrive_within ..).mono (by simp)) (s.loseDrive_within i)

theorem State.trip_within (f : DriveFrame) (t : Telemetry) : s.Within [.mpShow, .mpPlant, .dlc, .pgv] (s.trip i f t) := by
  unfold State.trip
  simp only
  split
  · exact (State.changeDrive_within ..).next (State.raise_within (w := [.mpShow, .mpPlant]) _ _ _ _ (by decide)) (by simp)
  · split
    · split
      · exact (State.withDrive_within ..).next (State.raise_within (w := [.mpShow, .mpPlant]) _ _ _ _ (by decide)) (by simp)
      · exact (State.withDrive_within ..).mono (by simp)
    · exact (State.withDrive_within ..).mono (by simp)

theorem State.localReply_within : s.Within [.mpPlant, .dlc, .pgv] (s.localReply i) :=
  .ite (State.changeDrive_within ..) ((s.driveReport_within i).mono (by simp))

theorem State.takeFound_within (r : Reported) (t : Telemetry) (b : Bool) :
    s.Within [.mpPlant, .dlc, .pgv] (s.takeFound i r t b) := by
  unfold State.takeFound
  simp only
  split
  · exact (State.withDrive_within ..).next (State.adopt_within ..) (by simp)
  · exact (State.withDrive_within ..).next (State.driveReportAtRest_within ..) (by simp)

theorem State.foundHeldOff_within : s.Within [.mpPlant, .dlc, .pgv] (s.foundHeldOff i) :=
  .ite (s.takePowerOff_within i) (.refl ..)

theorem State.found_within (r : Reported) (t : Telemetry) : s.Within [.mpPlant, .dlc, .pgv] (s.found i r t) := by
  refine State.Within.trans ?_ (State.foundHeldOff_within _ i)
  split
  · exact (s.takeFound_within i r t _).trans ((State.raise_within (w := [.mpPlant]) _ _ _ _ (by decide)).mono (by simp))
  · exact s.takeFound_within i r t _

theorem State.probeAnswered_within (r : Reported) (t : Telemetry) :
    s.Within [.mpShow, .mpPlant, .dlc, .pgv] (s.probeAnswered i r t) := by
  refine State.Within.trans ?_ ((State.foundHeldOff_within _ i).mono (by simp))
  have h : s.Within [.mpShow, .mpPlant, .dlc, .pgv] ((s.withDrive i { s.dlc[i] with
      present := true, misses := 0, telemetry := some t, age := 0 }).takeFound i r t false |>.raise .driveFound i.val t.speed) :=
    ((State.withDrive_within ..).next (State.takeFound_within ..) (by simp)).trans (State.raise_within _ _ _ _ (by decide))
  split
  · exact h.trans (State.raise_within _ _ _ _ (by decide))
  · exact h

theorem State.settleDelivered_within (f : DriveFrame) (r : Reported) :
    s.Within [.mpShow, .mpPlant, .dlc, .pgv] (s.settleDelivered i f r) := by
  unfold State.settleDelivered
  simp only
  split
  · split
    · split
      · exact (State.withDrive_within ..).next (State.raise_within (w := [.mpShow, .mpPlant]) _ _ _ _ (by decide)) (by simp)
      · exact (State.withDrive_within ..).mono (by simp)
    · exact (State.withDrive_within ..).mono (by simp)
  · exact .refl ..

theorem State.judgeState_within (r : Reported) (t : Telemetry) (b : Bool) :
    s.Within [.mpPlant, .dlc, .pgv] (s.judgeState i r t b) := by
  unfold State.judgeState
  simp only
  split
  · exact s.found_within i _ t
  · exact s.found_within i _ t
  · exact (State.changeDrive_within ..).trans ((State.raise_within (w := [.mpPlant]) _ _ _ _ (by decide)).mono (by simp))
  · exact State.changeDrive_within ..
  · exact State.changeDrive_within ..
  · exact State.changeDrive_within ..
  · exact .ite (State.changeDrive_within ..) (.refl ..)
  · exact .refl ..

theorem State.stateReply_within (f : DriveFrame) (r : Reported) (t : Telemetry) :
    s.Within [.mpShow, .mpPlant, .dlc, .pgv] (s.stateReply i f r t) := by
  unfold State.stateReply
  simp only
  apply State.Within.trans (t := s.withDrive i { s.dlc[i] with misses := 0, telemetry := some t, age := 0 })
    ((State.withDrive_within ..).mono (by simp))
  split
  · exact State.trip_within ..
  · split
    · exact (State.localReply_within ..).mono (by simp)
    · split
      · exact (State.found_within ..).mono (by simp)
      · exact (State.settleDelivered_within ..).next (State.judgeState_within ..) (by simp)

theorem State.refusedReply_within (f : DriveFrame) : s.Within [.mpShow, .mpPlant, .dlc, .pgv] (s.refusedReply i f) := by
  unfold State.refusedReply
  simp only
  split
  · exact (State.withDrive_within ..).mono (by simp)
  · split
    · exact (State.changeDrive_within ..).next (State.raise_within (w := [.mpPlant]) _ _ _ _ (by decide)) (by simp)
    · exact (State.withDrive_within ..).next (State.raise_within (w := [.mpPlant]) _ _ _ _ (by decide)) (by simp)

theorem State.completeExchange_within (f : DriveFrame) (good : Option ReplyKind) :
    s.Within [.mpShow, .mpPlant, .dlc, .pgv] (s.completeExchange i f good) := by
  unfold State.completeExchange
  split
  · exact s.stateReply_within ..
  · exact s.refusedReply_within ..
  · exact s.missReply_within ..
  · exact s.probeAnswered_within ..
  · exact .refl ..

theorem State.powerTimeout_within : s.Within [.mpShow, .mpPlant, .dlc, .pgv] (s.powerTimeout i) :=
  (State.changeDrive_within ..).next (State.raise_within (w := [.mpShow, .mpPlant]) _ _ _ _ (by decide)) (by simp)

end driveLine

/-! ## Cue store and sequencer -/

section show_

variable (s : State)

theorem State.evaluate_within (c : Channel) : s.Within [.mpShow, .cst] (s.evaluate c) := by
  unfold State.evaluate
  simp only
  split
  · exact (State.withCst_within ..).next (State.poolLowTest_within _) (by simp)
  · exact (State.withCst_within ..).mono (by simp)

theorem State.clearCues_within : s.Within [.cst] s.clearCues := State.withCst_within ..

theorem State.restShown_within : s.Within [.cst] s.restShown := State.withCst_within ..

theorem State.installCues_within (o : Origin) (d : Nat) (k : Curve) : s.Within [.mpShow, .cst] (s.installCues o d k) :=
  (State.withCst_within ..).next (State.poolLowTest_within _) (by simp)

theorem State.installFade_within : s.Within [.mpShow, .cst] s.installFade := State.installCues_within ..

theorem State.installRest_within : s.Within [.mpShow, .cst] s.installRest := State.installCues_within ..

theorem State.flushAudio_within : s.Within [.plu] s.flushAudio := State.withPlu_within ..

/-- SEQ's record is written and SHOW_STATE raised; PLU's starvation count only on entry into RUNNING (R5, R32). -/
theorem State.seqTake_within (q : Seq) : s.Within [.mpShow, .mpPlant, .mpConsole, .seq, .plu] (s.seqTake q) := by
  unfold State.seqTake
  simp only
  have h : s.Within [.mpShow, .mpPlant, .mpConsole, .seq, .plu] (if q.showState = .running ∧ s.seq.showState ≠ .running then
      (s.withSeq (s.seq.become q)).withPlu { (s.withSeq (s.seq.become q)).plu with starvation := 0 }
      else s.withSeq (s.seq.become q)) :=
    .ite ((State.withSeq_within ..).next (State.withPlu_within ..) (by simp)) ((State.withSeq_within ..).mono (by simp))
  exact .ite h (h.trans (State.raise_within _ _ _ _ (by decide)))

theorem State.seqTake_within_of_not_running {q : Seq} (hq : q.showState ≠ .running) :
    s.Within [.mpShow, .mpPlant, .mpConsole, .seq] (s.seqTake q) := by
  unfold State.seqTake
  simp only [hq, false_and, if_false]
  exact .ite ((State.withSeq_within ..).mono (by simp))
    ((State.withSeq_within ..).next (State.raise_within (w := [.mpShow, .mpPlant, .mpConsole]) _ _ _ _ (by decide)) (by simp))

theorem State.run_within : s.Within [.mpShow, .mpPlant, .mpConsole, .seq, .plu] s.run := State.seqTake_within ..

theorem State.holdFor_within (c : HoldCause) : s.Within [.mpShow, .mpPlant, .mpConsole, .seq] (s.holdFor c) :=
  State.seqTake_within_of_not_running _ (by simp)

theorem State.endFade_within : s.Within [.mpShow, .mpPlant, .mpConsole, .seq] s.endFade :=
  State.seqTake_within_of_not_running _ (by simp [Seq.idleWith])

theorem State.seqOpen_within : s.Within [.mpShow, .mpPlant, .mpConsole, .seq] s.seqOpen :=
  State.seqTake_within_of_not_running _ (by simp)

theorem State.seqCommit_within : s.Within [.mpShow, .mpPlant, .mpConsole, .seq] s.seqCommit :=
  State.seqTake_within_of_not_running _ (by simp)

theorem State.seqEstop_within : s.Within [.mpShow, .mpPlant, .mpConsole, .seq] s.seqEstop :=
  .ite (.refl ..) (State.seqTake_within_of_not_running _ (by simp [Seq.idleWith]))

theorem State.fadeOut_within (c : FadeCause) : s.Within [.mpShow, .mpPlant, .mpConsole, .seq, .plu, .cst] (s.fadeOut c) :=
  State.Within.next (t := s.installFade.flushAudio) (v := [.mpShow, .plu, .cst])
    (s.installFade_within.next (State.flushAudio_within _) (by simp)) (State.seqTake_within_of_not_running _ (by simp)) (by simp)

theorem State.takeArm_within (n : Nat) (e : Option Nat) (b : Bool) :
    s.Within [.mpShow, .mpPlant, .mpConsole, .seq, .plu, .pgv, .dlc] (s.takeArm n e b) := by
  unfold State.takeArm
  refine State.Within.next (v := [.mpPlant, .plu, .pgv, .dlc]) ?_ (State.seqTake_within_of_not_running _ ?_) (by simp)
  · exact (State.withPlu_within ..).next (State.armPowerOn_within _) (by simp)
  · simp

theorem State.settleSeq_within : s.Within [.mpShow, .mpPlant, .mpConsole, .seq, .plu, .cst] s.settleSeq :=
  .ite (s.endFade_within.mono (by simp)) (.ite (s.fadeOut_within _) (.ite ((s.holdFor_within _).mono (by simp)) (.refl ..)))

theorem State.startTimeout_within : s.Within [.mpShow, .seq] s.startTimeout :=
  (State.withSeq_within ..).next (State.raise_within (w := [.mpShow]) _ _ _ _ (by decide)) (by simp)

theorem State.reportLead_within : s.Within [.mpShow, .mpPlant, .mpConsole, .seq, .plu] s.reportLead :=
  .ite s.run_within (.ite s.run_within (.refl ..))

theorem State.queueBlock_within (b : AudioBlock) : s.Within [.mpShow, .mpPlant, .mpConsole, .seq, .plu] (s.queueBlock b) :=
  ((State.withPlu_within ..).trans (State.lowMarkRearm_within _)).next (State.reportLead_within _) (by simp)

theorem State.judgeBlock_within (b : AudioBlock) : s.Within [.mpShow, .mpPlant, .mpConsole, .seq, .plu] (s.judgeBlock b).1 := by
  unfold State.judgeBlock
  simp only
  split
  · exact .refl ..
  · split
    · exact .refl ..
    · split <;> exact State.queueBlock_within ..

theorem State.outputFrame_within : s.Within [.mpShow, .seq, .plu] s.outputFrame := by
  unfold State.outputFrame
  simp only
  split
  · exact (((State.withPlu_within ..).trans (State.withPlu_within ..)).next (State.withSeq_within ..)
      (w := [.seq, .plu]) (by simp)).next (State.lowMarkTest_within _) (by simp)
  · exact (State.withPlu_within ..).mono (by simp)

end show_

/-! ## Arbiter -/

section arbiter

variable (s : State) (c : Channel)

theorem State.withRecord_within (o : Ownership) : s.Within [.cha] (s.withRecord c o) := State.withCha_within ..

theorem State.withClaimCount_within (n : Nat) : s.Within [.cha] (s.withClaimCount n) := State.withCha_within ..

theorem State.dropCompleteRejoin_within : s.Within [.cha] (s.dropCompleteRejoin c) := by
  unfold State.dropCompleteRejoin
  simp only
  split
  · exact .ite (State.withRecord_within ..) (.refl ..)
  · exact .refl ..

theorem State.claimChannel_within (n : Tally) : s.Within [.cha] (s.claimChannel n c).1 := by
  unfold State.claimChannel
  simp only
  split
  · exact .refl ..
  · split
    · exact State.withRecord_within ..
    · split
      · exact .refl ..
      · exact (State.withRecord_within ..).trans (State.withClaimCount_within ..)

theorem State.endClaim_within (k : Claim) : s.Within [.cha] (s.endClaim c k) :=
  (State.withRecord_within ..).trans (State.withClaimCount_within ..)

theorem State.releaseChannel_within (n : Tally) : s.Within [.cha] (s.releaseChannel n c).1 := by
  unfold State.releaseChannel
  split
  · exact State.endClaim_within ..
  · exact .refl ..

theorem State.expireLease_within (k : Claim) : s.Within [.mpConsole, .cha] (s.expireLease c k) :=
  (State.endClaim_within ..).next (State.raise_within (w := [.mpConsole]) _ _ _ _ (by decide)) (by simp)

theorem State.loseClaim_within (n : Nat) : s.Within [.mpConsole, .cha] (s.loseClaim c n) := by
  unfold State.loseClaim
  split
  · exact (State.withClaimCount_within ..).next (State.raise_within (w := [.mpConsole]) _ _ _ _ (by decide)) (by simp)
  · exact .refl ..

theorem State.holdOffChannel_within (l : Lockout) : s.Within [.mpPlant, .dlc, .pgv] (s.holdOffChannel c l) := by
  unfold State.holdOffChannel
  split
  · exact .ite (State.holdOff_within ..) (.refl ..)
  · exact .refl ..

theorem State.lockChannel_within (l : Channel → Lockout) (n : Tally) :
    s.Within [.mpPlant, .mpConsole, .cha, .dlc, .pgv] (State.lockChannel l s n c).1 :=
  ((State.loseClaim_within ..).next (State.withRecord_within ..) (w := [.mpConsole, .cha]) (by simp)).next
    (State.holdOffChannel_within ..) (by simp)

theorem State.unlockChannel_within (n : Tally) : s.Within [.cha] (s.unlockChannel n c).1 := by
  unfold State.unlockChannel
  simp only
  split
  · exact State.withRecord_within ..
  · exact .refl ..

/-- The channels of a list, each handled within the same parts. -/
theorem State.eachChannel_within {w : List Part} {f : State → Tally → Channel → State × Tally}
    (h : ∀ t n c, State.Within w t (f t n c).1) (ns : List Nat) : s.Within w (s.eachChannel f ns).1 := by
  unfold State.eachChannel
  generalize Tally.zero = n
  induction ns generalizing s n with
  | nil => exact .refl ..
  | cons a ns ih =>
    refine State.Within.trans ?_ (ih (perChannel f (s, n) a).1 (perChannel f (s, n) a).2)
    unfold perChannel
    split
    · exact h ..
    · exact .refl ..

theorem State.dropClaims_within : s.Within [.cha] s.dropClaims := State.withCha_within ..

theorem State.chaEstop_within : s.Within [.mpConsole, .cha] s.chaEstop :=
  (State.dropClaims_within s).next
    (State.Within.foldl (w := [.mpConsole])
      (fun t (c : Channel) => t.raise_within .claimLost c.val 65535 (by decide)) _ _) (by simp)

theorem State.chaExit_within : s.Within [.cha] s.chaExit := State.withCha_within ..

end arbiter

/-! ## Outputs and scheduler -/

section scheduler

variable (s : State)

theorem State.handValve_within (g : Gather) : s.Within [.fsc, .out] (s.handValve g) :=
  (State.withOut_within ..).next (State.withLine_within ..) (by simp)

theorem State.handFixture_within (g : Gather) : s.Within [.fsc, .out] (s.handFixture g) :=
  (State.withOut_within ..).next (State.withLine_within ..) (by simp)

theorem State.handPump_within (g : Gather) : s.Within [.fsc] (s.handPump g) := by
  unfold State.handPump
  split
  · exact State.withLine_within ..
  · exact .refl ..

theorem State.sendNull_within (d : Pump) (f : DriveFrame) : s.Within [.fsc] (s.sendNull d f) := State.withLine_within ..

theorem State.handNull_within (d : Pump) (f : DriveFrame) : s.Within [.fsc, .dlc] (s.handNull d f) := by
  have sent := (s.sendNull_within d f).mono (w := [.fsc, .dlc]) (by simp)
  unfold State.handNull
  split
  · exact .ite ((State.withLine_within ..).mono (by simp)) ((s.sendNull_within d _).next (State.withDrive_within ..) (by simp))
  all_goals exact sent

theorem State.handGroup_within (g : Gather) : s.Within [.fsc, .out] (s.handGroup g) :=
  .ite ((s.handPump_within g).mono (by simp)) (.ite (s.handValve_within g) (s.handFixture_within g))

theorem State.millisecond_within : s.Within [.clock, .plm, .dlc] s.millisecond :=
  ((State.withClock_within ..).next (State.withPlm_within ..) (w := [.clock, .plm]) (by simp)).next
    (State.withDlc_within ..) (by simp)

theorem State.tick_within : s.Within [.clock, .plm, .dlc] s.tick :=
  .ite (s.millisecond_within.trans ((State.withClock_within ..).mono (by simp))) ((State.withClock_within ..).mono (by simp))

theorem State.serveNull_within : s.Within [.fsc, .dlc] s.serveNull := by
  unfold State.serveNull
  split
  · split
    · exact (State.withFsc_within ..).next (State.withDrive_within ..) (by simp)
    · exact .refl ..
  all_goals exact .refl ..

theorem State.overrun_within (g : Group) : s.Within [.mpPlant, .fsc] (s.overrun g) :=
  (State.withFsc_within ..).next (State.raise_within (w := [.mpPlant]) _ _ _ _ (by decide)) (by simp)

theorem State.serveGroup_within (g : Group) : s.Within [.mpPlant, .fsc] (s.serveGroup g) := by
  unfold State.serveGroup
  split
  · exact (State.withLine_within ..).mono (by simp)
  all_goals exact State.overrun_within ..

theorem State.serveEntry_within : s.Within [.mpPlant, .fsc, .dlc] s.serveEntry := by
  unfold State.serveEntry
  split
  · exact (State.serveGroup_within ..).mono (by simp)
  · exact s.serveNull_within.mono (by simp)

theorem State.slotExpiry_within : s.Within [.mpPlant, .fsc, .plm, .dlc, .clock] s.slotExpiry :=
  (s.tick_within.next (State.serveEntry_within _) (w := [.mpPlant, .fsc, .plm, .dlc, .clock]) (by simp)).next
    (State.withFsc_within ..) (by simp)

theorem State.withGather_within (c : Channel) (g : Gather) : s.Within [.fsc] (s.withGather c g) := State.withLine_within ..

theorem State.askShown_within (c : Channel) : s.Within [.mpShow, .cst, .fsc] (s.askShown c) := by
  unfold State.askShown
  split
  · split
    · exact (State.evaluate_within ..).next (State.withGather_within ..) (by simp)
    all_goals exact .refl ..
  · exact .refl ..

theorem State.askSelected_within (c : Channel) : s.Within [.cha, .fsc] (s.askSelected c) := by
  unfold State.askSelected
  split
  · split
    · exact (State.dropCompleteRejoin_within ..).next (State.withGather_within ..) (by simp)
    all_goals exact .refl ..
  · exact .refl ..

end scheduler

/-! ## Plant monitor, configuration, ports -/

section plant

variable (s : State)

theorem State.windGoesStale_within : s.Within [.mpShow, .mpPlant, .plm, .pgv] s.windGoesStale :=
  ((State.withPlm_within ..).next (State.raise_within (w := [.mpShow, .mpPlant]) _ _ _ _ (by decide))
    (w := [.mpShow, .mpPlant, .plm]) (by simp)).next (State.updateAllowed_within _) (by simp)

theorem State.levelGoesStale_within : s.Within [.mpShow, .mpPlant, .plm] s.levelGoesStale :=
  (State.withPlm_within ..).next (State.raise_within (w := [.mpShow, .mpPlant]) _ _ _ _ (by decide)) (by simp)

theorem State.enterStop_within (c : EntryCause) :
    s.Within [.mpShow, .mpPlant, .mpConsole, .seq, .plu, .cst, .cha, .plm] (s.enterStop c) := by
  unfold State.enterStop
  simp only
  refine State.Within.next (v := [.mpShow, .mpPlant, .mpConsole, .seq, .plu, .cst, .plm]) ?_ (State.chaEstop_within _) (by simp)
  refine State.Within.next (v := [.mpShow, .mpPlant, .mpConsole, .seq, .cst, .plm]) ?_ (State.flushAudio_within _) (by simp)
  refine State.Within.next (v := [.mpShow, .mpPlant, .mpConsole, .seq, .plm]) ?_ (State.installRest_within _) (by simp)
  refine State.Within.next (v := [.mpShow, .mpPlant, .mpConsole, .plm]) ?_ (State.seqEstop_within _) (by simp)
  exact (State.withPlm_within ..).next (State.raise_within (w := [.mpShow, .mpPlant, .mpConsole]) _ _ _ _ (by decide)) (by simp)

theorem State.leaveStop_within (e : StopEntry) :
    s.Within [.mpShow, .mpPlant, .mpConsole, .cha, .fsc, .plm] (s.leaveStop e) :=
  (((State.withPlm_within ..).next (State.raise_within (w := [.mpShow, .mpPlant, .mpConsole]) _ _ _ _ (by decide))
    (w := [.mpShow, .mpPlant, .mpConsole, .plm]) (by simp)).next (State.chaExit_within _)
    (w := [.mpShow, .mpPlant, .mpConsole, .cha, .plm]) (by simp)).next (State.withFsc_within ..) (by simp)

theorem State.judgeStop_within (c : EntryCause) :
    s.Within [.mpShow, .mpPlant, .mpConsole, .seq, .plu, .cst, .cha, .fsc, .plm] (s.judgeStop c) := by
  unfold State.judgeStop
  split
  · exact .ite ((s.enterStop_within c).mono (by simp)) (.refl ..)
  · exact .ite (.refl ..) ((s.leaveStop_within _).mono (by simp))

theorem State.judgeRaw_within : s.Within [.plm] s.judgeRaw := State.withPlm_within ..

theorem State.rawChange_within (low : Bool) : s.Within [.plm] (s.rawChange low) :=
  .ite (.refl ..) (.ite ((State.withPlm_within ..).trans (State.judgeRaw_within _)) (State.withPlm_within ..))

theorem State.takeLine_within : s.Within [.mpShow, .mpPlant, .mpConsole, .seq, .plu, .cst, .cha, .fsc, .plm] s.takeLine :=
  ((State.withPlm_within ..).mono (by simp)).trans (State.judgeStop_within ..)

theorem State.install_within :
    s.Within [.mpShow, .mpPlant, .mpConsole, .seq, .cst, .fsc, .pgv, .cfg, .tables] s.install := by
  unfold State.install
  simp only
  refine State.Within.next (v := [.mpShow, .mpPlant, .cst, .fsc, .pgv, .cfg, .tables]) ?_ (State.seqCommit_within _) (by simp)
  refine State.Within.next (v := [.mpPlant, .cst, .fsc, .pgv, .cfg, .tables]) ?_ (State.poolLowTest_within _) (by simp)
  refine State.Within.next (v := [.mpPlant, .fsc, .pgv, .cfg, .tables]) ?_
    ((State.clearCues_within _).trans (State.restShown_within _)) (by simp)
  refine State.Within.next (v := [.fsc, .pgv, .cfg, .tables]) ?_ (State.budgetTest_within _) (by simp)
  refine State.Within.next (v := [.fsc, .cfg, .tables]) ?_
    ((State.recomputeShares_within _).trans (State.updateAllowed_within _)) (by simp)
  exact ((State.withCfg_within ..).next (State.withTables_within ..) (w := [.cfg, .tables]) (by simp)).next
    (State.withFsc_within ..) (by simp)

theorem State.release_within : s.Within [.plm, .clock] s.release :=
  .ite (.refl ..) ((State.withClock_within ..).next (State.judgeRaw_within _) (by simp))

theorem State.dispatch_within (p : Port) : s.Within [portPart p] (s.dispatch p) := by
  unfold State.dispatch
  split
  · split
    · exact State.withPort_within ..
    · exact .ite (State.withPort_within ..) (State.withPort_within ..)
  · exact .refl ..

end plant

end Sys2Proof.Machine
end

