-- ==== Sys2Proof/Laws/Requests.lean ====
section
/-! SUPPORT. What each request's owning block may write, and how a request in execution comes to its answer. -/

namespace Sys2Proof.Machine

theorem armRequest_within (s : State) (body) :
    s.Within [.mpShow, .mpPlant, .mpConsole, .seq, .plu, .pgv, .dlc] (armRequest body s).1 := by
  unfold armRequest refuse
  split
  · exact .refl ..
  split
  · exact .refl ..
  split
  · exact .refl ..
  · exact .refl ..
  · exact .refl ..
  · exact .refl ..
  · exact .refl ..
  · split
    · exact .refl ..
    · dsimp only; exact s.takeArm_within ..

theorem stopRequest_within (s : State) : s.Within [.mpShow, .mpPlant, .mpConsole, .seq, .plu, .cst] (stopRequest s).1 := by
  unfold stopRequest refuse
  split <;> first | exact .refl .. | exact s.fadeOut_within .. | exact (State.withSeq_within ..).mono (by simp)

theorem cueLoadRequest_within (s : State) (body) : s.Within [.mpShow, .cst] (cueLoadRequest body s).1 := by
  unfold cueLoadRequest refuse
  split
  · exact .refl ..
  split
  · exact .refl ..
  split
  · exact .refl ..
  · exact (State.withCst_within ..).next (State.poolLowTest_within _) (by simp)

theorem cueClearRequest_within (s : State) (body) : s.Within [.mpShow, .cst] (cueClearRequest body s).1 := by
  unfold cueClearRequest refuse
  split
  · exact .refl ..
  split
  · exact .refl ..
  split
  · exact .refl ..
  · exact (State.withCst_within ..).next (State.poolLowTest_within _) (by simp)

theorem startRequest_within (s : State) : s.Within [.mpShow, .mpPlant, .mpConsole, .seq, .plu] (startRequest s).1 := by
  unfold startRequest refuse
  split
  · split
    · exact .refl ..
    · split
      · exact s.run_within
      · exact (State.withSeq_within ..).mono (by simp)
  all_goals split <;> exact .refl ..

theorem resumeRequest_within (s : State) : s.Within [.mpShow, .mpPlant, .mpConsole, .seq, .plu] (resumeRequest s).1 := by
  unfold resumeRequest refuse
  split
  · split
    · split
      · exact s.run_within
      · exact (s.holdFor_within _).mono (by simp)
    · exact .refl ..
  all_goals exact .refl ..

theorem pauseRequest_within (s : State) : s.Within [.mpShow, .mpPlant, .mpConsole, .seq] (pauseRequest s).1 := by
  unfold pauseRequest refuse
  split <;> first | exact .refl .. | exact s.holdFor_within ..

theorem audioBlockRequest_within (s : State) (body) :
    s.Within [.mpShow, .mpPlant, .mpConsole, .seq, .plu] (audioBlockRequest body s).1 := by
  unfold audioBlockRequest
  split
  · exact .refl ..
  split
  · exact .refl ..
  split <;> first | exact .refl .. | exact s.judgeBlock_within ..

theorem setRequest_within (s : State) (body) : s.Within [.cha] (setRequest body s).1 := by
  unfold setRequest refuse
  simp only
  repeat' split
  all_goals first | exact .refl .. | exact State.withRecord_within ..

theorem drivePowerRequest_within (s : State) (body) : s.Within [.mpPlant, .dlc, .pgv] (drivePowerRequest body s).1 := by
  unfold drivePowerRequest refuse powerOnRequest powerOffRequest
  repeat' split
  all_goals first | exact .refl .. | exact State.takePowerOff_within .. | exact State.takePowerOn_within ..

theorem driveClearRequest_within (s : State) (body) : s.Within [.dlc] (driveClearRequest body s).1 := by
  unfold driveClearRequest refuse
  simp only
  repeat' split
  all_goals first | exact .refl .. | exact State.withDrive_within ..

theorem configOpenRequest_within (s : State) (body) :
    s.Within [.mpShow, .mpPlant, .mpConsole, .seq, .cfg] (configOpenRequest body s).1 := by
  unfold configOpenRequest
  repeat' split
  all_goals first | exact .refl .. | exact (State.withCfg_within ..).next (State.seqOpen_within _) (by simp)

theorem configCommitRequest_within (s : State) :
    s.Within [.mpShow, .mpPlant, .mpConsole, .seq, .cst, .fsc, .pgv, .cfg, .tables] (configCommitRequest s).1 := by
  unfold configCommitRequest refuse
  repeat' split
  all_goals first | exact .refl .. | exact s.install_within

theorem configWriteRequest_within (s : State) (body) : s.Within [.cfg] (configWriteRequest body s).1 := by
  unfold configWriteRequest refuse
  repeat' split
  all_goals first | exact .refl .. | exact State.withCfg_within ..

theorem State.restarted_within (s : State) : s.Within [.mpShow, .mpPlant, .mpConsole, .seq, .plu, .cst, .cha] s.restarted := by
  refine ⟨fun a ha => ?_⟩
  cases a <;> simp_all [State.sameAt, State.restarted, State.dropClaims, State.clearCues, State.restShown]

theorem readChannelRequest_same (s : State) (b) : (readChannelRequest b s).1 = s := by
  unfold readChannelRequest refuse; repeat' split
  all_goals rfl

theorem readDriveRequest_same (s : State) (b) : (readDriveRequest b s).1 = s := by
  unfold readDriveRequest refuse; repeat' split
  all_goals rfl

theorem audioFlushRequest_within (s : State) : s.Within [.mpShow, .plu] (audioFlushRequest s).1 :=
  s.flushAudio_within.next (State.lowMarkTest_within _) (by simp)

theorem volumeRequest_within (s : State) (body) : s.Within [.plu] (volumeRequest body s).1 := by
  unfold volumeRequest refuse
  split
  · exact .refl ..
  · exact State.withPlu_within ..

theorem claimRequest_within (s : State) (body) : s.Within [.cha] (claimRequest body s).1 := by
  unfold claimRequest refuse
  split
  · exact .refl ..
  split
  · exact .refl ..
  · exact s.eachChannel_within (fun t n c => t.claimChannel_within c n) _

theorem releaseRequest_within (s : State) (body) : s.Within [.cha] (releaseRequest body s).1 := by
  unfold releaseRequest refuse
  split
  · exact .refl ..
  · exact s.eachChannel_within (fun t n c => t.releaseChannel_within c n) _

theorem lockoutRequest_within (s : State) (body) :
    s.Within [.mpPlant, .mpConsole, .cha, .dlc, .pgv] (lockoutRequest body s).1 := by
  unfold lockoutRequest refuse
  split
  · exact .refl ..
  · exact s.eachChannel_within (fun t n c => t.lockChannel_within c _ n) _

theorem unlockRequest_within (s : State) (body) : s.Within [.cha] (unlockRequest body s).1 := by
  unfold unlockRequest refuse
  split
  · exact .refl ..
  · exact s.eachChannel_within (fun t n c => t.unlockChannel_within c n) _

theorem estopRequest_within (s : State) :
    s.Within [.mpShow, .mpPlant, .mpConsole, .seq, .plu, .cst, .cha, .fsc, .plm] (estopRequest s).1 :=
  ((State.withPlm_within ..).mono (by simp)).trans (State.judgeStop_within _ _)

theorem estopResetRequest_within (s : State) :
    s.Within [.mpShow, .mpPlant, .mpConsole, .seq, .plu, .cst, .cha, .fsc, .plm] (estopResetRequest s).1 :=
  ((State.withPlm_within ..).mono (by simp)).trans (State.judgeStop_within _ _)

theorem windRequest_within (s : State) (body) : s.Within [.plm, .pgv] (windRequest body s).1 := by
  unfold windRequest refuse
  split
  · exact .refl ..
  · exact (State.withPlm_within ..).next (State.updateAllowed_within _) (by simp)

theorem levelRequest_within (s : State) (body) : s.Within [.mpShow, .mpPlant, .plm] (levelRequest body s).1 := by
  unfold levelRequest refuse
  split
  · exact .refl ..
  · exact (State.withPlm_within ..).next (State.lowWaterTest_within _ _) (by simp)

theorem budgetRequest_within (s : State) (body) : s.Within [.mpPlant, .pgv] (budgetRequest body s).1 := by
  unfold budgetRequest refuse
  split
  · exact .refl ..
  · exact (State.withPgv_within ..).next (State.budgetTest_within _) (by simp)

theorem noticesRequest_within (p : Port) (s : State) : s.Within [portPart p] (noticesRequest p s).1 :=
  State.withPort_within ..

/-! ## From a request in execution to its answer -/

/-- A request in execution on the port is served: what the block makes of its body, then the response. -/
theorem State.serveWhen_eq {s : State} {p : Port} {kind tag : Byte} {body : List Byte} (h : s.InExecution p kind tag body)
    (mine : List Byte → Bool) (take : List Byte → State → Reply) :
    s.serveWhen p kind mine take =
      if mine body = true then
        (take body s).1.answer p ⟨kind, tag, body⟩ (take body s).2.1 (take body s).2.2
      else s := by
  obtain ⟨at_, h⟩ := h
  simp [State.serveWhen, h]

theorem State.serve_eq {s : State} {p : Port} {kind tag : Byte} {body : List Byte} (h : s.InExecution p kind tag body)
    (take : List Byte → State → Reply) :
    s.serve p kind take = (take body s).1.answer p ⟨kind, tag, body⟩ (take body s).2.1 (take body s).2.2 := by
  simp [State.serve, State.serveWhen_eq h]

/-- A command that serves requests of this kind answers with what its block gives back. -/
theorem Answers.of_reply {c : Instr} {s t : State} {p : Port} {kind tag : Byte} {body reply : List Byte} {r : Result}
    {take : List Byte → State → Reply} (e : exec c s = .next (s.serve p kind take)) (h : s.InExecution p kind tag body)
    (k : take body s = (t, r, reply)) : Answers c s p kind tag body t r reply := by
  unfold Answers
  rw [e, State.serve_eq h, k]

/-- Serving keeps any property that the block's own part keeps and that answering keeps. -/
theorem State.serveWhen_keeps {P : State → Prop} {s : State} {p : Port} {kind : Byte} {mine : List Byte → Bool}
    {take : List Byte → State → Reply} (hs : P s)
    (h : ∀ x, (s.port p).executing = some x → x.request.kind = kind → mine x.request.body = true →
      P ((take x.request.body s).1.answer p x.request (take x.request.body s).2.1 (take x.request.body s).2.2)) :
    P (s.serveWhen p kind mine take) := by
  unfold State.serveWhen
  split
  · rename_i x hx
    split
    · rename_i hk
      exact h x hx hk.1 hk.2
    · exact hs
  · exact hs

end Sys2Proof.Machine
end

