-- ==== Sys2Proof/Laws/Effects.lean ====
section
/-! SUPPORT. What the shared operations leave behind, field by field: one lemma for each field an operation may write. -/

namespace Sys2Proof.Machine

/-! ## Tables of a fixed number of entries -/

theorem toList_tabulate {α : Type} {n : Nat} (f : Fin n → α) : (tabulate f).toList = List.ofFn f := rfl

theorem toList_eq_ofFn {α : Type} {n : Nat} (v : Vector α n) : v.toList = List.ofFn fun i : Fin n => v[i] := by
  apply List.ext_getElem <;> simp

/-- The sum of a measure over a list when one entry is replaced. -/
theorem sum_map_set {α : Type} (v : List α) (i : Nat) (h : i < v.length) (f : α → Nat) (a : α) :
    ((v.set i a).map f).sum + f v[i] = (v.map f).sum + f a := by
  induction v generalizing i with
  | nil => simp at h
  | cons b v ih =>
    cases i with
    | zero => simp; omega
    | succ i =>
      have := ih i (by simpa using h)
      simp only [List.set_cons_succ, List.map_cons, List.sum_cons, List.getElem_cons_succ]
      omega

/-! ## Steps -/

/-- A property that the queue of waiting commands does not touch, and that every command keeps, is kept by every step. -/
theorem step_keeps {P : State → Prop} (queue : ∀ s rest, P s → P { s with pending := rest })
    (command : ∀ c s t, P s → exec c s = .next t → P t) {s t : State} (h : P s) (e : step s = .next t) : P t := by
  unfold step at e
  split at e
  · injection e with e
    exact e ▸ h
  · exact command _ _ _ (queue _ _ h) e

/-! ## Tests that raise notices -/

section tests

variable (s : State)

@[simp] theorem State.poolLowTest_lists : s.poolLowTest.cst.lists = s.cst.lists := by
  unfold State.poolLowTest; split <;> [skip; split] <;> simp

@[simp] theorem State.poolLowTest_free : s.poolLowTest.cst.free = s.cst.free := by
  unfold State.poolLowTest; split <;> [skip; split] <;> simp

@[simp] theorem State.poolLowTest_shown : s.poolLowTest.cst.shown = s.cst.shown := by
  unfold State.poolLowTest; split <;> [skip; split] <;> simp

@[simp] theorem State.poolLowTest_skipped : s.poolLowTest.cst.skipped = s.cst.skipped := by
  unfold State.poolLowTest; split <;> [skip; split] <;> simp

@[simp] theorem State.poolLowTest_seq : s.poolLowTest.seq = s.seq := (s.poolLowTest_within).same .seq (by simp)
@[simp] theorem State.poolLowTest_plu : s.poolLowTest.plu = s.plu := (s.poolLowTest_within).same .plu (by simp)
@[simp] theorem State.poolLowTest_cha : s.poolLowTest.cha = s.cha := (s.poolLowTest_within).same .cha (by simp)
@[simp] theorem State.poolLowTest_fsc : s.poolLowTest.fsc = s.fsc := (s.poolLowTest_within).same .fsc (by simp)
@[simp] theorem State.poolLowTest_pgv : s.poolLowTest.pgv = s.pgv := (s.poolLowTest_within).same .pgv (by simp)
@[simp] theorem State.poolLowTest_dlc : s.poolLowTest.dlc = s.dlc := (s.poolLowTest_within).same .dlc (by simp)
@[simp] theorem State.poolLowTest_out : s.poolLowTest.out = s.out := (s.poolLowTest_within).same .out (by simp)
@[simp] theorem State.poolLowTest_plm : s.poolLowTest.plm = s.plm := (s.poolLowTest_within).same .plm (by simp)
@[simp] theorem State.poolLowTest_cfg : s.poolLowTest.cfg = s.cfg := (s.poolLowTest_within).same .cfg (by simp)
@[simp] theorem State.poolLowTest_tables : s.poolLowTest.tables = s.tables := (s.poolLowTest_within).same .tables (by simp)
@[simp] theorem State.poolLowTest_clock : s.poolLowTest.clock = s.clock := (s.poolLowTest_within).same .clock (by simp)

@[simp] theorem State.poolLowTest_mpPlant : s.poolLowTest.mpPlant = s.mpPlant :=
  (s.poolLowTest_within).same .mpPlant (by simp)
@[simp] theorem State.poolLowTest_mpConsole : s.poolLowTest.mpConsole = s.mpConsole :=
  (s.poolLowTest_within).same .mpConsole (by simp)

/-- All that the free-pool-low test can do (R46). -/
theorem State.poolLowTest_tested : s.PoolTested s.mpShow s.cst.free s.poolLowTest.cst.poolLowArmed s.poolLowTest.mpShow := by
  unfold State.PoolTested State.poolLowTest
  refine ⟨fun a b => ?_, fun a b => ?_, fun a => ?_⟩
  · rw [if_pos ⟨a, b⟩]
    exact ⟨rfl, rfl⟩
  · rw [if_neg (by omega), if_neg (by simp [a])]
    exact ⟨a, rfl⟩
  · rw [if_neg (by simp [a])]
    split
    · rename_i h
      exact ⟨rfl, fun _ => h.2, fun _ => rfl⟩
    · rename_i h
      exact ⟨rfl, fun k => absurd k (by simp [a]), fun k => absurd ⟨a, k⟩ h⟩

@[simp] theorem State.budgetTest_pumps : s.budgetTest.pgv.pumps = s.pgv.pumps := by
  unfold State.budgetTest; split <;> [skip; split] <;> simp

@[simp] theorem State.budgetTest_total : s.budgetTest.pgv.total = s.pgv.total := by
  unfold State.budgetTest; split <;> [skip; split] <;> simp

@[simp] theorem State.budgetTest_budget : s.budgetTest.pgv.budget = s.pgv.budget := by
  unfold State.budgetTest; split <;> [skip; split] <;> simp

/-- All that the budget test can do to the flag and the PLANT port (R112). -/
theorem State.budgetTest_tested : s.BudgetTested s.mpPlant s.pgv.total s.budgetTest.pgv.excess s.budgetTest.mpPlant := by
  unfold State.BudgetTested State.budgetTest
  refine ⟨fun a b => ?_, fun a b => ?_, fun a => ?_⟩
  · rw [if_pos ⟨a, b⟩]
    exact ⟨rfl, rfl⟩
  · rw [if_neg (by omega), if_pos ⟨a, b⟩]
    exact ⟨rfl, rfl⟩
  · rw [if_neg fun h => Bool.noConfusion (h.1.symm.trans (a.2 h.2)), if_neg fun h => absurd (a.1 h.1) (by omega)]
    exact ⟨rfl, rfl⟩

@[simp] theorem State.budgetTest_seq : s.budgetTest.seq = s.seq := (s.budgetTest_within).same .seq (by simp)
@[simp] theorem State.budgetTest_plu : s.budgetTest.plu = s.plu := (s.budgetTest_within).same .plu (by simp)
@[simp] theorem State.budgetTest_cst : s.budgetTest.cst = s.cst := (s.budgetTest_within).same .cst (by simp)
@[simp] theorem State.budgetTest_cha : s.budgetTest.cha = s.cha := (s.budgetTest_within).same .cha (by simp)
@[simp] theorem State.budgetTest_fsc : s.budgetTest.fsc = s.fsc := (s.budgetTest_within).same .fsc (by simp)
@[simp] theorem State.budgetTest_dlc : s.budgetTest.dlc = s.dlc := (s.budgetTest_within).same .dlc (by simp)
@[simp] theorem State.budgetTest_out : s.budgetTest.out = s.out := (s.budgetTest_within).same .out (by simp)
@[simp] theorem State.budgetTest_plm : s.budgetTest.plm = s.plm := (s.budgetTest_within).same .plm (by simp)
@[simp] theorem State.budgetTest_cfg : s.budgetTest.cfg = s.cfg := (s.budgetTest_within).same .cfg (by simp)
@[simp] theorem State.budgetTest_tables : s.budgetTest.tables = s.tables := (s.budgetTest_within).same .tables (by simp)
@[simp] theorem State.budgetTest_clock : s.budgetTest.clock = s.clock := (s.budgetTest_within).same .clock (by simp)
@[simp] theorem State.budgetTest_mpShow : s.budgetTest.mpShow = s.mpShow := (s.budgetTest_within).same .mpShow (by simp)
@[simp] theorem State.budgetTest_mpConsole : s.budgetTest.mpConsole = s.mpConsole :=
  (s.budgetTest_within).same .mpConsole (by simp)

/-- The low-mark test touches only PLU's flag, and a SHOW notice (R35). -/
theorem State.lowMarkTest_plu : ∃ armed, s.lowMarkTest.plu = { s.plu with lowMarkArmed := armed } := by
  unfold State.lowMarkTest
  split
  · exact ⟨false, by simp⟩
  · exact ⟨s.plu.lowMarkArmed, rfl⟩

@[simp] theorem State.lowMarkTest_position : s.lowMarkTest.plu.position = s.plu.position := by
  obtain ⟨a, h⟩ := s.lowMarkTest_plu; simp [h]

@[simp] theorem State.lowMarkTest_queue : s.lowMarkTest.plu.queue = s.plu.queue := by
  obtain ⟨a, h⟩ := s.lowMarkTest_plu; simp [h]

@[simp] theorem State.lowMarkTest_starvation : s.lowMarkTest.plu.starvation = s.plu.starvation := by
  obtain ⟨a, h⟩ := s.lowMarkTest_plu; simp [h]

@[simp] theorem State.lowMarkTest_volume : s.lowMarkTest.plu.volume = s.plu.volume := by
  obtain ⟨a, h⟩ := s.lowMarkTest_plu; simp [h]

@[simp] theorem State.lowMarkTest_output : s.lowMarkTest.plu.output = s.plu.output := by
  obtain ⟨a, h⟩ := s.lowMarkTest_plu; simp [h]

@[simp] theorem State.lowMarkTest_seq : s.lowMarkTest.seq = s.seq := (s.lowMarkTest_within).same .seq (by simp)
@[simp] theorem State.lowMarkTest_cst : s.lowMarkTest.cst = s.cst := (s.lowMarkTest_within).same .cst (by simp)
@[simp] theorem State.lowMarkTest_cfg : s.lowMarkTest.cfg = s.cfg := (s.lowMarkTest_within).same .cfg (by simp)

@[simp] theorem State.lowMarkRearm_seq : s.lowMarkRearm.seq = s.seq := by
  unfold State.lowMarkRearm; split <;> simp

@[simp] theorem State.lowMarkRearm_tables : s.lowMarkRearm.tables = s.tables := by
  unfold State.lowMarkRearm; split <;> simp

@[simp] theorem State.lowMarkRearm_clock : s.lowMarkRearm.clock = s.clock := (s.lowMarkRearm_within).same .clock (by simp)

@[simp] theorem State.lowMarkRearm_port (p : Port) : s.lowMarkRearm.port p = s.port p := by
  unfold State.lowMarkRearm; split <;> simp

theorem State.lowMarkRearm_plu : s.lowMarkRearm.plu = { s.plu with
    lowMarkArmed := if s.tables.limits.lowMark + 2400 ≤ s.plu.lead then true else s.plu.lowMarkArmed } := by
  unfold State.lowMarkRearm
  by_cases h : s.tables.limits.lowMark + 2400 ≤ s.plu.lead
  · rw [if_pos h, if_pos (show s.tables.limits.lowMark + Config.lowMarkMargin ≤ s.plu.lead from h)]; rfl
  · rw [if_neg h, if_neg (show ¬ s.tables.limits.lowMark + Config.lowMarkMargin ≤ s.plu.lead from h)]

end tests

/-! ## SEQ's record (R5, R31, R32) -/

section seqTake

variable (s : State) (q : Seq)

@[simp] theorem Seq.become_showState (old : Seq) : (old.become q).showState = q.showState := by
  unfold Seq.become; split <;> rfl
@[simp] theorem Seq.become_holdCause (old : Seq) : (old.become q).holdCause = q.holdCause := by
  unfold Seq.become; split <;> rfl
@[simp] theorem Seq.become_idleCause (old : Seq) : (old.become q).idleCause = q.idleCause := by
  unfold Seq.become; split <;> rfl
@[simp] theorem Seq.become_resetOrigin (old : Seq) : (old.become q).resetOrigin = q.resetOrigin := by
  unfold Seq.become; split <;> rfl
@[simp] theorem Seq.become_startDeadline (old : Seq) : (old.become q).startDeadline = q.startDeadline := by
  unfold Seq.become; split <;> rfl
@[simp] theorem Seq.become_endPosition (old : Seq) : (old.become q).endPosition = q.endPosition := by
  unfold Seq.become; split <;> rfl
@[simp] theorem Seq.become_fadeEnd (old : Seq) : (old.become q).fadeEnd = q.fadeEnd := by
  unfold Seq.become; split <;> rfl
@[simp] theorem Seq.become_fadeCause (old : Seq) : (old.become q).fadeCause = q.fadeCause := by
  unfold Seq.become; split <;> rfl
@[simp] theorem Seq.become_silent (old : Seq) : (old.become q).silent = q.silent := by
  unfold Seq.become; split <;> rfl

@[simp] theorem State.seqTake_seq : (s.seqTake q).seq = s.seq.become q := by
  unfold State.seqTake
  simp only
  split <;> split <;> simp

/-- Entry into RUNNING sets the starvation count to 0; nothing else of PLU is touched (R32). -/
theorem State.seqTake_plu : (s.seqTake q).plu =
    if q.showState = .running ∧ s.seq.showState ≠ .running then { s.plu with starvation := 0 } else s.plu := by
  unfold State.seqTake
  simp only
  split <;> split <;> simp

@[simp] theorem State.seqTake_position : (s.seqTake q).plu.position = s.plu.position := by
  rw [State.seqTake_plu]; split <;> rfl
@[simp] theorem State.seqTake_queue : (s.seqTake q).plu.queue = s.plu.queue := by
  rw [State.seqTake_plu]; split <;> rfl
@[simp] theorem State.seqTake_volume : (s.seqTake q).plu.volume = s.plu.volume := by
  rw [State.seqTake_plu]; split <;> rfl

@[simp] theorem State.seqTake_cst : (s.seqTake q).cst = s.cst := (s.seqTake_within q).same .cst (by simp)
@[simp] theorem State.seqTake_cha : (s.seqTake q).cha = s.cha := (s.seqTake_within q).same .cha (by simp)
@[simp] theorem State.seqTake_fsc : (s.seqTake q).fsc = s.fsc := (s.seqTake_within q).same .fsc (by simp)
@[simp] theorem State.seqTake_pgv : (s.seqTake q).pgv = s.pgv := (s.seqTake_within q).same .pgv (by simp)
@[simp] theorem State.seqTake_dlc : (s.seqTake q).dlc = s.dlc := (s.seqTake_within q).same .dlc (by simp)
@[simp] theorem State.seqTake_out : (s.seqTake q).out = s.out := (s.seqTake_within q).same .out (by simp)
@[simp] theorem State.seqTake_plm : (s.seqTake q).plm = s.plm := (s.seqTake_within q).same .plm (by simp)
@[simp] theorem State.seqTake_cfg : (s.seqTake q).cfg = s.cfg := (s.seqTake_within q).same .cfg (by simp)
@[simp] theorem State.seqTake_tables : (s.seqTake q).tables = s.tables := (s.seqTake_within q).same .tables (by simp)
@[simp] theorem State.seqTake_clock : (s.seqTake q).clock = s.clock := (s.seqTake_within q).same .clock (by simp)

/-- SHOW_STATE is raised with the show position when the show state, hold cause or idle cause has a new value (R5). -/
theorem State.seqTake_port (p : Port) : (s.seqTake q).port p =
    if q.shownFields = s.seq.shownFields then s.port p
    else (s.port p).place ⟨.showState, 0, s.plu.position, s.clock.now⟩ := by
  unfold State.seqTake
  simp only
  split <;> split <;> simp_all [State.raise_port, NoticeKind.raisedTo]

end seqTake

/-! ## Cues (R39, R53–R56) -/

section cues

variable (s : State)

@[simp] theorem Cst.withList_shown (x : Cst) (c : Channel) (l : List Cue) : (x.withList c l).shown = x.shown := rfl
@[simp] theorem Cst.withList_skipped (x : Cst) (c : Channel) (l : List Cue) : (x.withList c l).skipped = x.skipped := rfl
@[simp] theorem Cst.withList_lists (x : Cst) (c : Channel) (l : List Cue) : (x.withList c l).lists = x.lists.set c l := rfl
@[simp] theorem Cst.withList_free (x : Cst) (c : Channel) (l : List Cue) :
    (x.withList c l).free = x.free + (x.lists[c]).length - l.length := rfl

@[simp] theorem State.installCues_lists (o : Origin) (d : Nat) (k : Curve) : (s.installCues o d k).cst.lists =
    tabulate fun c => [⟨s.showTime, d, k, s.tables.restValue c, o, .pending⟩] := by
  simp [State.installCues]

@[simp] theorem State.installCues_free (o : Origin) (d : Nat) (k : Curve) : (s.installCues o d k).cst.free = 3760 := by
  simp [State.installCues, Config.poolSize]

@[simp] theorem State.installCues_shown (o : Origin) (d : Nat) (k : Curve) :
    (s.installCues o d k).cst.shown = s.cst.shown := by
  simp [State.installCues]

theorem State.installCues_tested (o : Origin) (d : Nat) (k : Curve) :
    s.PoolTested s.mpShow 3760 (s.installCues o d k).cst.poolLowArmed (s.installCues o d k).mpShow :=
  (s.withCst { s.cst with
    lists := tabulate fun c => [⟨s.showTime, d, k, s.tables.restValue c, o, .pending⟩]
    free := Config.poolSize - 336 }).poolLowTest_tested

@[simp] theorem State.installCues_skipped (o : Origin) (d : Nat) (k : Curve) :
    (s.installCues o d k).cst.skipped = s.cst.skipped := by
  simp [State.installCues]

/-- The cue store's part of a fade-out is the installation of the fade cues (R14, R54). -/
@[simp] theorem State.fadeOut_cst (c : FadeCause) : (s.fadeOut c).cst = s.installFade.cst := by
  simp [State.fadeOut, State.flushAudio]

/-- What SEQ was handed changes the cue store only by the end of the show (R16). -/
theorem State.settleSeq_cst : s.settleSeq.cst = s.cst ∨ s.settleSeq.cst = s.installFade.cst := by
  unfold State.settleSeq
  split
  · exact .inl (by simp [State.endFade])
  split
  · exact .inr (by simp)
  split
  · exact .inl (by simp [State.holdFor])
  · exact .inl rfl

/-- The number of listed records when one list is replaced (R39). -/
theorem listedCues_set (lists : Vector (List Cue) 336) (c : Channel) (l : List Cue) :
    listedCues (lists.set c l) + (lists[c]).length = listedCues lists + l.length := by
  have := sum_map_set lists.toList c.val (by rw [Vector.length_toList]; exact c.isLt) List.length l
  simpa only [listedCues, Vector.toList_set, Vector.getElem_toList, Fin.getElem_fin] using this

/-- The number of listed records, channel by channel (R39). -/
theorem listedCues_eq_sum (lists : Vector (List Cue) 336) : listedCues lists = ∑ c : Channel, (lists[c]).length := by
  rw [listedCues, toList_eq_ofFn, List.map_ofFn, List.sum_ofFn]
  rfl

/-- A list in a table holds no more records than all of them (R39). -/
theorem length_le_listedCues (lists : Vector (List Cue) 336) (c : Channel) : (lists[c]).length ≤ listedCues lists := by
  have := listedCues_set lists c []
  simp only [List.length_nil] at this
  omega

/-- Replacing a list keeps the first law when the pool can supply the records it takes (R39). -/
theorem Cst.withList_pool (x : Cst) (c : Channel) (l : List Cue) (h : l.length ≤ x.free + (x.lists[c]).length) :
    (x.withList c l).free + listedCues (x.withList c l).lists = x.free + listedCues x.lists := by
  have := listedCues_set x.lists c l
  have := length_le_listedCues x.lists c
  simp only [Cst.withList_free, Cst.withList_lists]
  omega

/-- A table of lists of one length each (R39, R53, R56). -/
theorem listedCues_tabulate {f : Channel → List Cue} {n : Nat} (h : ∀ c, (f c).length = n) :
    listedCues (tabulate f) = 336 * n := by
  have e : (tabulate f).toList.map List.length = List.replicate 336 n := by
    have k : List.length ∘ f = fun _ => n := funext h
    rw [toList_tabulate, List.map_ofFn, k, List.ofFn_const]
  rw [listedCues, e, List.sum_replicate, smul_eq_mul]

theorem listedCues_uniform_nil : listedCues (uniform 336 []) = 0 := by
  have e : (uniform 336 ([] : List Cue)).toList.map List.length = List.replicate 336 0 := by
    rw [uniform, Vector.toList_replicate, List.map_replicate, List.length_nil]
  rw [listedCues, e, List.sum_replicate, smul_eq_mul]

end cues

end Sys2Proof.Machine
end

