-- ==== Sys2Proof/Laws/Bytes.lean ====
section
/-! SUPPORT. What the byte operations of bodies and frames do: lengths, and the field read where a number was written. -/

namespace Sys2Proof.Machine

/-! ## Lengths -/

@[simp] theorem bytes_length (k n : Nat) : (bytes k n).length = k := by simp [bytes]

@[simp] theorem flagByte_length (b : Bool) : (flagByte b).length = 1 := by simp [flagByte]

@[simp] theorem absent_length (k : Nat) : (absent k).length = k := by simp [absent]

@[simp] theorem optBytes_length (k : Nat) (o : Option Nat) : (optBytes k o).length = k := by
  cases o <;> simp [optBytes]

@[simp] theorem optTime_length (t : Option Time) : (optTime t).length = 4 := by simp [optTime]

@[simp] theorem valueBytes_length (v : Value) : (valueBytes v).length = 5 := by cases v <;> simp [valueBytes]

theorem bytes_one (n : Nat) : bytes 1 n = [BitVec.ofNat 8 n] := by simp [bytes]

/-! ## Fields -/

/-- The bytes of a number, taken together again, are the number. -/
theorem value_bytes (k n : Nat) (h : n < 256 ^ k) : (bytes k n).foldl (fun a b => a * 256 + b.toNat) 0 = n := by
  induction k generalizing n with
  | zero => simp [bytes] at *; omega
  | succ k ih =>
    have split_last : bytes (k + 1) n = bytes k (n / 256) ++ [BitVec.ofNat 8 n] := by
      unfold bytes
      rw [List.range_succ, List.map_append]
      congr 1
      · apply List.map_congr_left
        intro j hj
        rw [List.mem_range] at hj
        rw [Nat.div_div_eq_div_mul, ← Nat.pow_succ']
        congr 3
        omega
      · simp
    rw [split_last, List.foldl_append, ih]
    · simp; omega
    · rw [Nat.pow_succ] at h; omega

/-- A field that lies after the first piece of a body is a field of the rest. -/
theorem field_skip (first rest : List Byte) (at_ k : Nat) (h : first.length ≤ at_) :
    field (first ++ rest) at_ k = field rest (at_ - first.length) k := by
  simp only [field, List.drop_append, List.drop_of_length_le h, List.nil_append]

/-- The number written at the head of a body is the field there. -/
theorem field_head (rest : List Byte) (k n : Nat) (h : n < 256 ^ k) : field (bytes k n ++ rest) 0 k = n := by
  have e : (bytes k n ++ rest).take k = bytes k n := by
    rw [List.take_append_of_le_length (by simp), List.take_of_length_le (by simp)]
  simp only [field, List.drop_zero, e, value_bytes k n h]

/-- The number that makes up a whole body is its field. -/
theorem field_self (k n : Nat) (h : n < 256 ^ k) : field (bytes k n) 0 k = n := by
  simpa using field_head [] k n h

end Sys2Proof.Machine
end

