-- ==== Sys2Proof/Laws/Lists.lean ====
section
/-! SUPPORT. Lists of channels as bodies carry them, and what a request that takes such a list does, once for all of them. -/

namespace Sys2Proof.Machine

/-! ## Channel lists in bodies (R63, R67, R69, R72) -/

theorem flatMap_bytes_length (k : Nat) (ns : List Nat) : (ns.flatMap (bytes k)).length = k * ns.length := by
  induction ns with
  | nil => rfl
  | cons n ns ih => rw [List.flatMap_cons, List.length_append, bytes_length, ih, List.length_cons]; ring

theorem flatMap_bytes_drop (k : Nat) (ns : List Nat) (j : Nat) :
    (ns.flatMap (bytes k)).drop (k * j) = (ns.drop j).flatMap (bytes k) := by
  induction j generalizing ns with
  | zero => simp
  | succ j ih =>
    cases ns with
    | nil => simp
    | cons n ns =>
      rw [List.flatMap_cons, List.drop_append, bytes_length, List.drop_eq_nil_of_le (by rw [bytes_length]; nlinarith),
        List.nil_append, show k * (j + 1) - k = k * j by rw [Nat.mul_succ]; omega, ih, List.drop_succ_cons]

/-- A body that lists channel numbers of two bytes each is read as that list. -/
theorem channelList_flatMap (ns : List Nat) (h : ∀ n ∈ ns, n < 65536) : channelList (ns.flatMap (bytes 2)) = ns := by
  unfold channelList pieces
  rw [flatMap_bytes_length, Nat.mul_div_cancel_left _ (by decide), List.map_map]
  apply List.ext_getElem
  · simp
  · intro j h1 h2
    have e : ns.drop j = ns[j] :: ns.drop (j + 1) := List.drop_eq_getElem_cons h2
    simp only [List.getElem_map, List.getElem_range, Function.comp_apply, flatMap_bytes_drop, e, List.flatMap_cons]
    rw [List.take_append_of_le_length (by rw [bytes_length]), List.take_of_length_le (by rw [bytes_length])]
    exact field_self 2 _ (h _ (List.getElem_mem h2))

theorem channelListOk_flatMap (ns : List Nat) (h1 : 1 ≤ ns.length) (h2 : ns.length ≤ 64) :
    channelListOk (ns.flatMap (bytes 2)) = true := by
  have h3 : 2 * ns.length ≠ 0 := by omega
  have h4 : 2 * ns.length ≤ 128 := by omega
  simp only [channelListOk, flatMap_bytes_length, ne_eq, h3, h4, Nat.mul_mod_right, not_false_eq_true, decide_true,
    Bool.and_self]

/-! ## Entries taken in order -/

/-- The counts after one more entry with this outcome. -/
def Tally.take (n : Tally) : Taken → Tally
  | .first => n.one
  | .second => n.two
  | .refused r => n.refuse r

/-- If a request takes each entry of a list as `One` says, then it takes the list in order, and the counts are those of the outcomes.
What it carries from entry to entry is read as a state by `state`. -/
theorem foldl_taken {α β : Type} {One : State → α → Taken → State → Prop} {f : β × Tally → α → β × Tally} (state : β → State)
    (entry : ∀ x n a, ∃ o, One (state x) a o (state (f (x, n) a).1) ∧ (f (x, n) a).2 = n.take o) (as : List α) (x : β) (n : Tally) :
    ∃ os, TakenInOrder One (state x) as os (state (as.foldl f (x, n)).1) ∧ (as.foldl f (x, n)).2 = os.foldl Tally.take n := by
  induction as generalizing x n with
  | nil => exact ⟨[], ⟨rfl, rfl⟩, rfl⟩
  | cons a as ih =>
    rw [List.foldl_cons]
    obtain ⟨o, h1, h2⟩ := entry x n a
    obtain ⟨os, h3, h4⟩ := ih (f (x, n) a).1 (f (x, n) a).2
    exact ⟨o :: os, ⟨o, os, _, rfl, h1, h3⟩, by rw [List.foldl_cons, ← h2]; exact h4⟩

/-- The same of a list of channel numbers, of which those above 335 are refused. -/
theorem foldl_perChannel_taken {f : State → Tally → Channel → State × Tally} {One : State → Nat → Taken → State → Prop}
    (entry : ∀ s n c, ∃ o, One s c.val o (f s n c).1 ∧ (f s n c).2 = n.take o)
    (beyond : ∀ s n, 336 ≤ n → One s n (.refused .badArgument) s) (ns : List Nat) (s : State) (n : Tally) :
    ∃ os, TakenInOrder One s ns os (ns.foldl (perChannel f) (s, n)).1 ∧
      (ns.foldl (perChannel f) (s, n)).2 = os.foldl Tally.take n := by
  refine foldl_taken id (fun s n m => ?_) ns s n
  simp only [id_eq]
  unfold perChannel channelOf
  by_cases h : m < 336
  · rw [dif_pos h]; exact entry s n ⟨m, h⟩
  · rw [dif_neg h]; exact ⟨.refused .badArgument, beyond s m (by omega), rfl⟩

/-- The first refused entry among outcomes counted from `j` on. -/
def firstRefusal (os : List Taken) (j : Nat) : Option (Nat × Result) :=
  match os with
  | [] => none
  | .refused r :: _ => some (j, r)
  | .first :: os | .second :: os => firstRefusal os (j + 1)

theorem foldl_take (os : List Taken) (n : Tally) :
    (os.foldl Tally.take n).first = n.first + os.count .first ∧
    (os.foldl Tally.take n).second = n.second + os.count .second ∧
    (os.foldl Tally.take n).refused = n.refused + refusedCount os ∧
    (os.foldl Tally.take n).firstRefused = n.firstRefused.or (firstRefusal os n.index) := by
  induction os generalizing n with
  | nil => simp [refusedCount, firstRefusal]
  | cons o os ih =>
    rw [List.foldl_cons]
    obtain ⟨h1, h2, h3, h4⟩ := ih (n.take o)
    rw [h1, h2, h3, h4]
    cases o with
    | first => simp [Tally.take, Tally.one, refusedCount, firstRefusal, Taken.isRefused]; omega
    | second => simp [Tally.take, Tally.two, refusedCount, firstRefusal, Taken.isRefused]; omega
    | refused r =>
      refine ⟨by simp [Tally.take, Tally.refuse], by simp [Tally.take, Tally.refuse], ?_, ?_⟩
      · rw [refusedCount, refusedCount, List.filter_cons_of_pos rfl, List.length_cons]
        show n.refused + 1 + _ = _
        omega
      · simp only [Tally.take, Tally.refuse, firstRefusal]
        cases n.firstRefused <;> simp

theorem firstRefusal_index (os : List Taken) (j : Nat) :
    (firstRefusal os j).map (·.1) = (os.findIdx? Taken.isRefused).map (j + ·) := by
  induction os generalizing j with
  | nil => rfl
  | cons o os ih =>
    cases o <;> simp only [firstRefusal, ih, List.findIdx?_cons, Taken.isRefused, Bool.false_eq_true, if_false, if_true,
      Option.map_map, Option.map_some, Nat.add_zero] <;> (congr 1; funext i; simp only [Function.comp_apply]; omega)

theorem firstRefusal_reason (os : List Taken) (j : Nat) :
    ((firstRefusal os j).map fun x => x.2.code).getD 0 = refusedReason os := by
  unfold refusedReason
  induction os generalizing j with
  | nil => rfl
  | cons o os ih =>
    cases o <;> simp only [firstRefusal, List.find?_cons, Taken.isRefused, ih]
    rfl

/-- The counts, the first refused entry with its reason and the result that a response gives are those of the outcomes (R45, R65,
R67, R70, R72). -/
theorem Tally.of_outcomes {n : Tally} {os : List Taken} (h : n = os.foldl Tally.take Tally.zero) :
    n.first = os.count .first ∧ n.second = os.count .second ∧ n.refused = refusedCount os ∧ n.firstIndex = refusedIndex os ∧
      n.reason.code = refusedReason os ∧ n.result = takenResult os := by
  obtain ⟨a, b, c, d⟩ := foldl_take os Tally.zero
  rw [h]
  have d' : (os.foldl Tally.take Tally.zero).firstRefused = firstRefusal os 0 := d
  refine ⟨by rw [a]; simp [Tally.zero], by rw [b]; simp [Tally.zero], by rw [c]; simp [Tally.zero], ?_, ?_, ?_⟩
  · rw [Tally.firstIndex, d', firstRefusal_index, refusedIndex]
    cases os.findIdx? Taken.isRefused <;> simp
  · rw [Tally.reason, d', ← firstRefusal_reason os 0]
    cases firstRefusal os 0 <;> rfl
  · rw [Tally.result, c, takenResult, refusedCount]
    simp only [Tally.zero, Nat.zero_add, List.length_eq_zero_iff, List.filter_eq_nil_iff, List.any_eq_true]
    by_cases h : ∃ x ∈ os, x.isRefused = true
    · rw [if_pos h, if_neg]; simpa using h
    · rw [if_neg h, if_pos]; simpa using h

/-- A request that takes each entry of its list as `One` says takes the list in order, and its response counts the outcomes, gives
the first refused entry and its reason, and is OK when no entry was refused (R45, R65, R67, R70, R72). -/
theorem State.eachChannel_taken {f : State → Tally → Channel → State × Tally} {One : State → Nat → Taken → State → Prop}
    (entry : ∀ s n c, ∃ o, One s c.val o (f s n c).1 ∧ (f s n c).2 = n.take o)
    (beyond : ∀ s n, 336 ≤ n → One s n (.refused .badArgument) s) (s : State) (ns : List Nat) :
    ∃ os, TakenInOrder One s ns os (s.eachChannel f ns).1 ∧ (s.eachChannel f ns).2.first = os.count .first ∧
      (s.eachChannel f ns).2.second = os.count .second ∧ (s.eachChannel f ns).2.refused = refusedCount os ∧
      (s.eachChannel f ns).2.firstIndex = refusedIndex os ∧ (s.eachChannel f ns).2.reason.code = refusedReason os ∧
      (s.eachChannel f ns).2.result = takenResult os := by
  obtain ⟨os, h1, h2⟩ := foldl_perChannel_taken entry beyond ns s Tally.zero
  exact ⟨os, h1, Tally.of_outcomes h2⟩

end Sys2Proof.Machine
end

