-- ==== Sys2Proof/Laws/Notices.lean ====
section
/-! SUPPORT. What each shared operation does to the master ports: it places notices on their lists (R181), and nothing else. -/

namespace Sys2Proof.Machine

/-- Every port of `t` is the port of `s` with some notices placed on its list. -/
structure State.OnlyPlaces (s t : State) : Prop where
  placed : ∀ p : Port, ∃ ns : List Notice, t.port p = ns.foldl MasterPort.place (s.port p)

theorem State.OnlyPlaces.of_same {s t : State} (h : ∀ p, t.port p = s.port p) : s.OnlyPlaces t :=
  ⟨fun p => ⟨[], h p⟩⟩

theorem State.OnlyPlaces.refl (s : State) : s.OnlyPlaces s := .of_same fun _ => rfl

theorem State.OnlyPlaces.next {s t u : State} (h : s.OnlyPlaces t) (k : t.OnlyPlaces u) : s.OnlyPlaces u := by
  refine ⟨fun p => ?_⟩
  obtain ⟨ns, hn⟩ := h.placed p
  obtain ⟨ms, hm⟩ := k.placed p
  exact ⟨ns ++ ms, by rw [hm, hn, List.foldl_append]⟩

theorem State.OnlyPlaces.ite {s t u : State} {c : Prop} [Decidable c] (h : s.OnlyPlaces t) (k : s.OnlyPlaces u) :
    s.OnlyPlaces (if c then t else u) := by
  split <;> assumption

theorem State.OnlyPlaces.foldl {α : Type} {f : State → α → State} (h : ∀ (s : State) a, s.OnlyPlaces (f s a)) (l : List α)
    (s : State) : s.OnlyPlaces (l.foldl f s) := by
  induction l generalizing s with
  | nil => exact .refl s
  | cons a l ih => exact (h s a).next (ih _)

/-- A property of a port that placing any notice keeps holds after operations that only place notices. -/
theorem State.OnlyPlaces.keeps {P : MasterPort → Prop} (h : ∀ m n, P m → P (m.place n)) {s t : State} (k : s.OnlyPlaces t)
    (p : Port) (hp : P (s.port p)) : P (t.port p) := by
  obtain ⟨ns, hn⟩ := k.placed p
  rw [hn]
  generalize s.port p = m at hp
  clear hn
  induction ns generalizing m with
  | nil => exact hp
  | cons n ns ih => exact ih _ (h m n hp)

section updates

variable (s : State)

theorem State.withSeq_places (x : Seq) : s.OnlyPlaces (s.withSeq x) := .of_same (by simp)
theorem State.withPlu_places (x : Plu) : s.OnlyPlaces (s.withPlu x) := .of_same (by simp)
theorem State.withCst_places (x : Cst) : s.OnlyPlaces (s.withCst x) := .of_same (by simp)
theorem State.withCha_places (x : Cha) : s.OnlyPlaces (s.withCha x) := .of_same (by simp)
theorem State.withFsc_places (x : Fsc) : s.OnlyPlaces (s.withFsc x) := .of_same (by simp)
theorem State.withPgv_places (x : Pgv) : s.OnlyPlaces (s.withPgv x) := .of_same (by simp)
theorem State.withOut_places (x : Out) : s.OnlyPlaces (s.withOut x) := .of_same (by simp)
theorem State.withPlm_places (x : Plm) : s.OnlyPlaces (s.withPlm x) := .of_same (by simp)
theorem State.withCfg_places (x : Cfg) : s.OnlyPlaces (s.withCfg x) := .of_same (by simp)
theorem State.withTables_places (x : Tables) : s.OnlyPlaces (s.withTables x) := .of_same (by simp)
theorem State.withClock_places (x : Clock) : s.OnlyPlaces (s.withClock x) := .of_same (by simp)
theorem State.withDlc_places (x : Vector DriveRecord 16) : s.OnlyPlaces (s.withDlc x) := .of_same (by simp)
theorem State.withLine_places (l : Line) (x : LineState) : s.OnlyPlaces (s.withLine l x) := .of_same (by simp)

theorem State.raise_places (k : NoticeKind) (subject detail : Nat) : s.OnlyPlaces (s.raise k subject detail) := by
  refine ⟨fun p => ?_⟩
  rw [State.raise_port]
  split
  · exact ⟨[_], rfl⟩
  · exact ⟨[], rfl⟩

end updates

/-! ## Flags -/

section flags

variable (s : State)

theorem State.lowMarkTest_places : s.OnlyPlaces s.lowMarkTest := by
  unfold State.lowMarkTest
  split
  · exact (State.withPlu_places ..).next (State.raise_places ..)
  · exact .refl ..

theorem State.lowMarkRearm_places : s.OnlyPlaces s.lowMarkRearm := by
  unfold State.lowMarkRearm
  split
  · exact State.withPlu_places ..
  · exact .refl ..

theorem State.poolLowTest_places : s.OnlyPlaces s.poolLowTest := by
  unfold State.poolLowTest
  split
  · exact (State.withCst_places ..).next (State.raise_places ..)
  · split
    · exact (State.withCst_places ..)
    · exact .refl ..

theorem State.budgetTest_places : s.OnlyPlaces s.budgetTest := by
  unfold State.budgetTest
  split
  · exact (State.withPgv_places ..).next (State.raise_places ..)
  · split
    · exact (State.withPgv_places ..).next (State.raise_places ..)
    · exact .refl ..

theorem State.lowWaterTest_places (n : Nat) : s.OnlyPlaces (s.lowWaterTest n) := by
  unfold State.lowWaterTest
  split
  · exact (State.withPlm_places ..).next (State.raise_places ..)
  · split
    · exact (State.withPlm_places ..).next (State.raise_places ..)
    · exact .refl ..

end flags

/-! ## Governor -/

section governor

variable (s : State) (i : Pump)

theorem State.withPump_places (p : PumpState) : s.OnlyPlaces (s.withPump i p) := State.withPgv_places ..

theorem State.driveReport_places : s.OnlyPlaces (s.driveReport i) :=
  (State.withPump_places ..).next (State.budgetTest_places _)

theorem State.driveReportAtRest_places : s.OnlyPlaces (s.driveReportAtRest i) :=
  (State.withPump_places ..).next (State.budgetTest_places _)

theorem State.adopt_places (speed : Nat) : s.OnlyPlaces (s.adopt i speed) :=
  (State.withPump_places ..).next (State.budgetTest_places _)

theorem State.updateAllowed_places : s.OnlyPlaces s.updateAllowed := State.withPgv_places ..

theorem State.recomputeShares_places : s.OnlyPlaces s.recomputeShares := State.withPgv_places ..

theorem State.computeCommand_places (demand : Nat) : s.OnlyPlaces (s.computeCommand i demand) := by
  unfold State.computeCommand
  simp only
  split
  · exact (State.withPump_places ..).next (State.budgetTest_places _)
  · exact (State.withPgv_places ..)

end governor

/-! ## Drive line -/

section driveLine

variable (s : State) (i : Pump)

theorem State.withDrive_places (d : DriveRecord) : s.OnlyPlaces (s.withDrive i d) := State.withDlc_places ..

theorem State.changeDrive_places (d : DriveRecord) : s.OnlyPlaces (s.changeDrive i d) :=
  (State.withDrive_places ..).next (State.driveReport_places _ _)

theorem State.takePowerOff_places : s.OnlyPlaces (s.takePowerOff i) := by
  unfold State.takePowerOff
  simp only
  split <;> first | exact State.changeDrive_places .. | exact .refl ..

theorem State.holdOff_places : s.OnlyPlaces (s.holdOff i) :=
  .ite (s.takePowerOff_places i) (.refl ..)

theorem State.takePowerOn_places : s.OnlyPlaces (s.takePowerOn i) := by
  unfold State.takePowerOn
  simp only
  split <;> try split
  all_goals first | exact State.changeDrive_places .. | exact .refl ..

theorem State.armPowerOnFor_places : s.OnlyPlaces (s.armPowerOnFor i) :=
  .ite (State.changeDrive_places ..) (.refl ..)

theorem State.armPowerOn_places : s.OnlyPlaces s.armPowerOn :=
  State.OnlyPlaces.foldl State.armPowerOnFor_places _ _

theorem State.loseDrive_places : s.OnlyPlaces (s.loseDrive i) :=
  (State.changeDrive_places ..).next (State.raise_places ..)

theorem State.missReply_places : s.OnlyPlaces (s.missReply i) :=
  .ite ((State.withDrive_places ..)) (s.loseDrive_places i)

theorem State.trip_places (f : DriveFrame) (t : Telemetry) : s.OnlyPlaces (s.trip i f t) := by
  unfold State.trip
  simp only
  split
  · exact (State.changeDrive_places ..).next (State.raise_places ..)
  · split
    · split
      · exact (State.withDrive_places ..).next (State.raise_places ..)
      · exact (State.withDrive_places ..)
    · exact (State.withDrive_places ..)

theorem State.localReply_places : s.OnlyPlaces (s.localReply i) :=
  .ite (State.changeDrive_places ..) ((s.driveReport_places i))

theorem State.takeFound_places (r : Reported) (t : Telemetry) (b : Bool) : s.OnlyPlaces (s.takeFound i r t b) := by
  unfold State.takeFound
  simp only
  split
  · exact (State.withDrive_places ..).next (State.adopt_places ..)
  · exact (State.withDrive_places ..).next (State.driveReportAtRest_places ..)

theorem State.foundHeldOff_places : s.OnlyPlaces (s.foundHeldOff i) :=
  .ite (s.takePowerOff_places i) (.refl ..)

theorem State.found_places (r : Reported) (t : Telemetry) : s.OnlyPlaces (s.found i r t) := by
  refine State.OnlyPlaces.next ?_ (State.foundHeldOff_places _ i)
  split
  · exact (s.takeFound_places i r t _).next ((State.raise_places ..))
  · exact s.takeFound_places i r t _

theorem State.probeAnswered_places (r : Reported) (t : Telemetry) :
    s.OnlyPlaces (s.probeAnswered i r t) := by
  refine State.OnlyPlaces.next ?_ ((State.foundHeldOff_places _ i))
  have h : s.OnlyPlaces ((s.withDrive i { s.dlc[i] with
      present := true, misses := 0, telemetry := some t, age := 0 }).takeFound i r t false |>.raise .driveFound i.val t.speed) :=
    ((State.withDrive_places ..).next (State.takeFound_places ..)).next (State.raise_places ..)
  split
  · exact h.next (State.raise_places ..)
  · exact h

theorem State.settleDelivered_places (f : DriveFrame) (r : Reported) :
    s.OnlyPlaces (s.settleDelivered i f r) := by
  unfold State.settleDelivered
  simp only
  split
  · split
    · split
      · exact (State.withDrive_places ..).next (State.raise_places ..)
      · exact (State.withDrive_places ..)
    · exact (State.withDrive_places ..)
  · exact .refl ..

theorem State.judgeState_places (r : Reported) (t : Telemetry) (b : Bool) :
    s.OnlyPlaces (s.judgeState i r t b) := by
  unfold State.judgeState
  simp only
  split
  · exact s.found_places i _ t
  · exact s.found_places i _ t
  · exact (State.changeDrive_places ..).next ((State.raise_places ..))
  · exact State.changeDrive_places ..
  · exact State.changeDrive_places ..
  · exact State.changeDrive_places ..
  · exact .ite (State.changeDrive_places ..) (.refl ..)
  · exact .refl ..

theorem State.stateReply_places (f : DriveFrame) (r : Reported) (t : Telemetry) :
    s.OnlyPlaces (s.stateReply i f r t) := by
  unfold State.stateReply
  simp only
  apply State.OnlyPlaces.next (t := s.withDrive i { s.dlc[i] with misses := 0, telemetry := some t, age := 0 })
    ((State.withDrive_places ..))
  split
  · exact State.trip_places ..
  · split
    · exact (State.localReply_places ..)
    · split
      · exact (State.found_places ..)
      · exact (State.settleDelivered_places ..).next (State.judgeState_places ..)

theorem State.refusedReply_places (f : DriveFrame) : s.OnlyPlaces (s.refusedReply i f) := by
  unfold State.refusedReply
  simp only
  split
  · exact (State.withDrive_places ..)
  · split
    · exact (State.changeDrive_places ..).next (State.raise_places ..)
    · exact (State.withDrive_places ..).next (State.raise_places ..)

theorem State.completeExchange_places (f : DriveFrame) (good : Option ReplyKind) :
    s.OnlyPlaces (s.completeExchange i f good) := by
  unfold State.completeExchange
  split
  · exact s.stateReply_places ..
  · exact s.refusedReply_places ..
  · exact s.missReply_places ..
  · exact s.probeAnswered_places ..
  · exact .refl ..

theorem State.powerTimeout_places : s.OnlyPlaces (s.powerTimeout i) :=
  (State.changeDrive_places ..).next (State.raise_places ..)

end driveLine

/-! ## Cue store and sequencer -/

section show_

variable (s : State)

theorem State.evaluate_places (c : Channel) : s.OnlyPlaces (s.evaluate c) := by
  unfold State.evaluate
  simp only
  split
  · exact (State.withCst_places ..).next (State.poolLowTest_places _)
  · exact (State.withCst_places ..)

theorem State.clearCues_places : s.OnlyPlaces s.clearCues := State.withCst_places ..

theorem State.restShown_places : s.OnlyPlaces s.restShown := State.withCst_places ..

theorem State.installCues_places (o : Origin) (d : Nat) (k : Curve) : s.OnlyPlaces (s.installCues o d k) :=
  (State.withCst_places ..).next (State.poolLowTest_places _)

theorem State.installFade_places : s.OnlyPlaces s.installFade := State.installCues_places ..

theorem State.installRest_places : s.OnlyPlaces s.installRest := State.installCues_places ..

theorem State.flushAudio_places : s.OnlyPlaces s.flushAudio := State.withPlu_places ..

theorem State.seqTake_places (q : Seq) : s.OnlyPlaces (s.seqTake q) := by
  unfold State.seqTake
  simp only
  have h : s.OnlyPlaces (if q.showState = .running ∧ s.seq.showState ≠ .running then
      (s.withSeq (s.seq.become q)).withPlu { (s.withSeq (s.seq.become q)).plu with starvation := 0 }
      else s.withSeq (s.seq.become q)) :=
    .ite ((State.withSeq_places ..).next (State.withPlu_places ..)) (State.withSeq_places ..)
  exact .ite h (h.next (State.raise_places ..))

theorem State.run_places : s.OnlyPlaces s.run := State.seqTake_places ..

theorem State.holdFor_places (c : HoldCause) : s.OnlyPlaces (s.holdFor c) :=
  State.seqTake_places ..

theorem State.endFade_places : s.OnlyPlaces s.endFade :=
  State.seqTake_places ..

theorem State.seqOpen_places : s.OnlyPlaces s.seqOpen :=
  State.seqTake_places ..

theorem State.seqCommit_places : s.OnlyPlaces s.seqCommit :=
  State.seqTake_places ..

theorem State.seqEstop_places : s.OnlyPlaces s.seqEstop :=
  .ite (.refl ..) (State.seqTake_places ..)

theorem State.fadeOut_places (c : FadeCause) : s.OnlyPlaces (s.fadeOut c) :=
  State.OnlyPlaces.next (t := s.installFade.flushAudio)
    (s.installFade_places.next (State.flushAudio_places _)) (State.seqTake_places ..)

theorem State.takeArm_places (n : Nat) (e : Option Nat) (b : Bool) : s.OnlyPlaces (s.takeArm n e b) := by
  unfold State.takeArm
  exact ((State.withPlu_places ..).next (State.armPowerOn_places _)).next (State.seqTake_places ..)

theorem State.settleSeq_places : s.OnlyPlaces s.settleSeq :=
  .ite (s.endFade_places) (.ite (s.fadeOut_places _) (.ite ((s.holdFor_places _)) (.refl ..)))

theorem State.startTimeout_places : s.OnlyPlaces s.startTimeout :=
  (State.withSeq_places ..).next (State.raise_places ..)

theorem State.reportLead_places : s.OnlyPlaces s.reportLead :=
  .ite s.run_places (.ite s.run_places (.refl ..))

theorem State.queueBlock_places (b : AudioBlock) : s.OnlyPlaces (s.queueBlock b) :=
  ((State.withPlu_places ..).next (State.lowMarkRearm_places _)).next (State.reportLead_places _)

theorem State.judgeBlock_places (b : AudioBlock) : s.OnlyPlaces (s.judgeBlock b).1 := by
  unfold State.judgeBlock
  simp only
  split
  · exact .refl ..
  · split
    · exact .refl ..
    · split <;> exact State.queueBlock_places ..

theorem State.outputFrame_places : s.OnlyPlaces s.outputFrame := by
  unfold State.outputFrame
  simp only
  split
  · exact (((State.withPlu_places ..).next (State.withPlu_places ..)).next (State.withSeq_places ..)).next (State.lowMarkTest_places _)
  · exact (State.withPlu_places ..)

end show_

/-! ## Arbiter -/

section arbiter

variable (s : State) (c : Channel)

theorem State.withRecord_places (o : Ownership) : s.OnlyPlaces (s.withRecord c o) := State.withCha_places ..

theorem State.withClaimCount_places (n : Nat) : s.OnlyPlaces (s.withClaimCount n) := State.withCha_places ..

theorem State.dropCompleteRejoin_places : s.OnlyPlaces (s.dropCompleteRejoin c) := by
  unfold State.dropCompleteRejoin
  simp only
  split
  · exact .ite (State.withRecord_places ..) (.refl ..)
  · exact .refl ..

theorem State.claimChannel_places (n : Tally) : s.OnlyPlaces (s.claimChannel n c).1 := by
  unfold State.claimChannel
  simp only
  split
  · exact .refl ..
  · split
    · exact State.withRecord_places ..
    · split
      · exact .refl ..
      · exact (State.withRecord_places ..).next (State.withClaimCount_places ..)

theorem State.endClaim_places (k : Claim) : s.OnlyPlaces (s.endClaim c k) :=
  (State.withRecord_places ..).next (State.withClaimCount_places ..)

theorem State.releaseChannel_places (n : Tally) : s.OnlyPlaces (s.releaseChannel n c).1 := by
  unfold State.releaseChannel
  split
  · exact State.endClaim_places ..
  · exact .refl ..

theorem State.expireLease_places (k : Claim) : s.OnlyPlaces (s.expireLease c k) :=
  (State.endClaim_places ..).next (State.raise_places ..)

theorem State.loseClaim_places (n : Nat) : s.OnlyPlaces (s.loseClaim c n) := by
  unfold State.loseClaim
  split
  · exact (State.withClaimCount_places ..).next (State.raise_places ..)
  · exact .refl ..

theorem State.holdOffChannel_places (l : Lockout) : s.OnlyPlaces (s.holdOffChannel c l) := by
  unfold State.holdOffChannel
  split
  · exact .ite (State.holdOff_places ..) (.refl ..)
  · exact .refl ..

theorem State.lockChannel_places (l : Channel → Lockout) (n : Tally) :
    s.OnlyPlaces (State.lockChannel l s n c).1 :=
  ((State.loseClaim_places ..).next (State.withRecord_places ..)).next
    (State.holdOffChannel_places ..)

theorem State.unlockChannel_places (n : Tally) : s.OnlyPlaces (s.unlockChannel n c).1 := by
  unfold State.unlockChannel
  simp only
  split
  · exact State.withRecord_places ..
  · exact .refl ..

/-- The channels of a list, each of which only places notices. -/
theorem State.eachChannel_places {f : State → Tally → Channel → State × Tally}
    (h : ∀ t n c, State.OnlyPlaces t (f t n c).1) (ns : List Nat) : s.OnlyPlaces (s.eachChannel f ns).1 := by
  unfold State.eachChannel
  generalize Tally.zero = n
  induction ns generalizing s n with
  | nil => exact .refl ..
  | cons a ns ih =>
    refine State.OnlyPlaces.next ?_ (ih (perChannel f (s, n) a).1 (perChannel f (s, n) a).2)
    unfold perChannel
    split
    · exact h ..
    · exact .refl ..

theorem State.dropClaims_places : s.OnlyPlaces s.dropClaims := State.withCha_places ..

theorem State.chaEstop_places : s.OnlyPlaces s.chaEstop :=
  (State.dropClaims_places s).next
    (State.OnlyPlaces.foldl
      (fun t (c : Channel) => t.raise_places .claimLost c.val 65535) _ _)

theorem State.chaExit_places : s.OnlyPlaces s.chaExit := State.withCha_places ..

end arbiter

/-! ## Outputs and scheduler -/

section scheduler

variable (s : State)

theorem State.handValve_places (g : Gather) : s.OnlyPlaces (s.handValve g) :=
  (State.withOut_places ..).next (State.withLine_places ..)

theorem State.handFixture_places (g : Gather) : s.OnlyPlaces (s.handFixture g) :=
  (State.withOut_places ..).next (State.withLine_places ..)

theorem State.handPump_places (g : Gather) : s.OnlyPlaces (s.handPump g) := by
  unfold State.handPump
  split
  · exact State.withLine_places ..
  · exact .refl ..

theorem State.sendNull_places (d : Pump) (f : DriveFrame) : s.OnlyPlaces (s.sendNull d f) := State.withLine_places ..

theorem State.handNull_places (d : Pump) (f : DriveFrame) : s.OnlyPlaces (s.handNull d f) := by
  have sent := s.sendNull_places d f
  unfold State.handNull
  split
  · exact .ite (State.withLine_places ..) ((s.sendNull_places d _).next (State.withDrive_places ..))
  all_goals exact sent

theorem State.handGroup_places (g : Gather) : s.OnlyPlaces (s.handGroup g) :=
  .ite ((s.handPump_places g)) (.ite (s.handValve_places g) (s.handFixture_places g))

theorem State.millisecond_places : s.OnlyPlaces s.millisecond :=
  ((State.withClock_places ..).next (State.withPlm_places ..)).next
    (State.withDlc_places ..)

theorem State.tick_places : s.OnlyPlaces s.tick :=
  .ite (s.millisecond_places.next ((State.withClock_places ..))) ((State.withClock_places ..))

theorem State.serveNull_places : s.OnlyPlaces s.serveNull := by
  unfold State.serveNull
  split
  · split
    · exact (State.withFsc_places ..).next (State.withDrive_places ..)
    · exact .refl ..
  all_goals exact .refl ..

theorem State.overrun_places (g : Group) : s.OnlyPlaces (s.overrun g) :=
  (State.withFsc_places ..).next (State.raise_places ..)

theorem State.serveGroup_places (g : Group) : s.OnlyPlaces (s.serveGroup g) := by
  unfold State.serveGroup
  split
  · exact (State.withLine_places ..)
  all_goals exact State.overrun_places ..

theorem State.serveEntry_places : s.OnlyPlaces s.serveEntry := by
  unfold State.serveEntry
  split
  · exact State.serveGroup_places ..
  · exact s.serveNull_places

theorem State.slotExpiry_places : s.OnlyPlaces s.slotExpiry :=
  (s.tick_places.next (State.serveEntry_places _)).next
    (State.withFsc_places ..)

theorem State.withGather_places (c : Channel) (g : Gather) : s.OnlyPlaces (s.withGather c g) := State.withLine_places ..

theorem State.askShown_places (c : Channel) : s.OnlyPlaces (s.askShown c) := by
  unfold State.askShown
  split
  · split
    · exact (State.evaluate_places ..).next (State.withGather_places ..)
    all_goals exact .refl ..
  · exact .refl ..

theorem State.askSelected_places (c : Channel) : s.OnlyPlaces (s.askSelected c) := by
  unfold State.askSelected
  split
  · split
    · exact (State.dropCompleteRejoin_places ..).next (State.withGather_places ..)
    all_goals exact .refl ..
  · exact .refl ..

end scheduler

/-! ## Plant monitor, configuration, ports -/

section plant

variable (s : State)

theorem State.windGoesStale_places : s.OnlyPlaces s.windGoesStale :=
  ((State.withPlm_places ..).next (State.raise_places ..)).next (State.updateAllowed_places _)

theorem State.levelGoesStale_places : s.OnlyPlaces s.levelGoesStale :=
  (State.withPlm_places ..).next (State.raise_places ..)

theorem State.enterStop_places (c : EntryCause) :
    s.OnlyPlaces (s.enterStop c) := by
  unfold State.enterStop
  simp only
  refine State.OnlyPlaces.next ?_ (State.chaEstop_places _)
  refine State.OnlyPlaces.next ?_ (State.flushAudio_places _)
  refine State.OnlyPlaces.next ?_ (State.installRest_places _)
  refine State.OnlyPlaces.next ?_ (State.seqEstop_places _)
  exact (State.withPlm_places ..).next (State.raise_places ..)

theorem State.leaveStop_places (e : StopEntry) :
    s.OnlyPlaces (s.leaveStop e) :=
  (((State.withPlm_places ..).next (State.raise_places ..)).next (State.chaExit_places _)).next (State.withFsc_places ..)

theorem State.judgeStop_places (c : EntryCause) :
    s.OnlyPlaces (s.judgeStop c) := by
  unfold State.judgeStop
  split
  · exact .ite (s.enterStop_places c) (.refl ..)
  · exact .ite (.refl ..) (s.leaveStop_places _)

theorem State.judgeRaw_places : s.OnlyPlaces s.judgeRaw := State.withPlm_places ..

theorem State.rawChange_places (low : Bool) : s.OnlyPlaces (s.rawChange low) :=
  .ite (.refl ..) (.ite ((State.withPlm_places ..).next (State.judgeRaw_places _)) (State.withPlm_places ..))

theorem State.takeLine_places : s.OnlyPlaces s.takeLine :=
  ((State.withPlm_places ..)).next (State.judgeStop_places ..)

theorem State.install_places :
    s.OnlyPlaces s.install := by
  unfold State.install
  simp only
  refine State.OnlyPlaces.next ?_ (State.seqCommit_places _)
  refine State.OnlyPlaces.next ?_ (State.poolLowTest_places _)
  refine State.OnlyPlaces.next ?_
    ((State.clearCues_places _).next (State.restShown_places _))
  refine State.OnlyPlaces.next ?_ (State.budgetTest_places _)
  refine State.OnlyPlaces.next ?_
    ((State.recomputeShares_places _).next (State.updateAllowed_places _))
  exact ((State.withCfg_places ..).next (State.withTables_places ..)).next
    (State.withFsc_places ..)

theorem State.release_places : s.OnlyPlaces s.release :=
  .ite (.refl ..) ((State.withClock_places ..).next (State.judgeRaw_places _))

end plant

end Sys2Proof.Machine
end

