-- ==== Sys2Proof/Laws/Operations.lean ====
section
/-! SUPPORT. What the shared operations over one record, one line or one list do, each said once. -/

namespace Sys2Proof.Machine

/-! ## Ports -/

/-- A response placed makes the attention output active (R175, R183). -/
theorem MasterPort.respond_eq (m : MasterPort) (r : Response) :
    m.respond r = { m with outgoing := m.outgoing ++ [r], attention := true } := by
  have : (m.outgoing ++ [r]).isEmpty = false := by cases m.outgoing <;> rfl
  simp only [MasterPort.respond, MasterPort.settle, this, Bool.not_false, Bool.true_or]

/-! ## Records -/

theorem State.withRecord_record (s : State) (c d : Channel) (o : Ownership) :
    (s.withRecord c o).cha.records[d] = if c = d then o else s.cha.records[d] := by
  simp only [State.withRecord, State.withCha_cha, Fin.getElem_fin, Vector.getElem_set]
  by_cases h : c = d
  · subst h; simp
  · rw [if_neg fun e => h (Fin.ext e), if_neg h]

theorem State.withDrive_drive (s : State) (i j : Pump) (d : DriveRecord) :
    (s.withDrive i d).dlc[j] = if i = j then d else s.dlc[j] := by
  simp only [State.withDrive, State.withDlc_dlc, Fin.getElem_fin, Vector.getElem_set]
  by_cases h : i = j
  · subst h; simp
  · rw [if_neg fun e => h (Fin.ext e), if_neg h]

theorem pumps_set (pumps : Vector PumpState 16) (i j : Pump) (p : PumpState) :
    (pumps.set i p)[j] = if i = j then p else pumps[j] := by
  simp only [Fin.getElem_fin, Vector.getElem_set]
  by_cases h : i = j
  · subst h; simp
  · rw [if_neg fun e => h (Fin.ext e), if_neg h]

/-- The ledger total when one pump's values are replaced (R97). -/
theorem ledgerTotal_set (pumps : Vector PumpState 16) (i : Pump) (p : PumpState) :
    ledgerTotal (pumps.set i p) + pumps[i].share = ledgerTotal pumps + p.share := by
  simpa [ledgerTotal, Vector.toList_set] using sum_map_set pumps.toList i.val (by simp) PumpState.share p

/-- A changed drive record stands in DLC (R98). -/
theorem State.changeDrive_drive (s : State) (i j : Pump) (d : DriveRecord) :
    (s.changeDrive i d).dlc[j] = if i = j then d else s.dlc[j] := by
  have : (s.changeDrive i d).dlc = (s.withDrive i d).dlc := by
    simp [State.changeDrive, State.driveReport, State.withPump]
  rw [this, State.withDrive_drive]

/-- The governor's values after a drive state report (R97, R98). -/
theorem State.changeDrive_pump (s : State) (i j : Pump) (d : DriveRecord) :
    (s.changeDrive i d).pgv.pumps[j] = if i = j then { s.pgv.pumps[j] with
        commanded := if d.governed then s.pgv.pumps[j].commanded else 0
        share := shareFor s.tables.pumps[j].prated d (if d.governed then s.pgv.pumps[j].commanded else 0) }
      else s.pgv.pumps[j] := by
  unfold State.changeDrive State.driveReport
  simp only [State.budgetTest_pumps, State.withPump, State.withPgv_pgv, pumps_set, State.withDrive_drive]
  by_cases h : i = j
  · subst h; simp [State.withDrive]
  · rw [if_neg h, if_neg h]; rfl

/-- A power-off taken (R133). -/
theorem State.takePowerOff_drive (s : State) (i j : Pump) : (s.takePowerOff i).dlc[j] =
    if i = j ∧ (s.dlc[j].power = .on ∨ s.dlc[j].power = .poweringUp) then
      { s.dlc[j] with
        power := .poweringDown
        pending := some ⟨.powerOff, s.clock.now,
          if s.dlc[j].power = .on then .on else (s.dlc[j].pending.map PendingCommand.prior).getD .poweringUp, false⟩ }
    else s.dlc[j] := by
  unfold State.takePowerOff
  simp only
  split
  all_goals rename_i h1 h2
  all_goals try rename_i h3
  all_goals try rw [State.changeDrive_drive]
  all_goals by_cases h : i = j
  all_goals try subst h
  all_goals simp_all

/-- Building a management frame leaves every field of the record but the mark of a pending command (R124). -/
theorem DriveRecord.framing_fields (d : DriveRecord) :
    d.framing.present = d.present ∧ d.framing.power = d.power ∧ d.framing.deadline = d.deadline ∧ d.framing.fault = d.fault ∧
      d.framing.misses = d.misses ∧ d.framing.telemetry = d.telemetry ∧ d.framing.age = d.age := ⟨rfl, rfl, rfl, rfl, rfl, rfl, rfl⟩

/-- The command pending after the building is the one before it, marked. -/
theorem DriveRecord.framing_pending {d : DriveRecord} {p : PendingCommand} (h : d.framing.pending = some p) :
    p.framed = true ∧ ∃ mark, d.pending = some { p with framed := mark } := by
  obtain ⟨q, hq, rfl⟩ := Option.map_eq_some_iff.mp h
  exact ⟨rfl, q.framed, hq⟩

theorem DriveRecord.framing_none {d : DriveRecord} (h : d.pending = none) : d.framing = d := by
  unfold DriveRecord.framing
  rw [h, Option.map_none, ← h]

/-- What the service of a slot does to a drive record: nothing, or the mark of a management frame built for it (R87, R124). -/
theorem State.serveEntry_drive (s : State) (j : Pump) :
    s.serveEntry.dlc[j] = s.dlc[j] ∨ s.serveEntry.dlc[j] = s.dlc[j].framing := by
  unfold State.serveEntry
  split
  · rw [show ∀ g, (s.serveGroup g).dlc = s.dlc from fun g => (s.serveGroup_within g).same .dlc (by simp)]
    exact .inl rfl
  · unfold State.serveNull
    split
    · split
      · rename_i d _
        rw [State.withDrive_drive]
        split
        · subst j; exact .inr rfl
        · exact .inl rfl
      · exact .inl rfl
    all_goals exact .inl rfl

/-- What the hand-over of a management frame does to a drive record: nothing, or, of a POWER frame to a drive not in FAULT, a power
deadline (R124, R134). -/
theorem State.handNull_drive (s : State) (d j : Pump) (f : DriveFrame) :
    (s.handNull d f).dlc[j] = s.dlc[j] ∨
      (j = d ∧ s.dlc[d].power ≠ .fault ∧ (∃ on, f = .power on) ∧
        (s.handNull d f).dlc[j] = { s.dlc[d] with deadline := some s.powerDeadline }) := by
  unfold State.handNull
  split
  · split
    · exact .inl rfl
    · rename_i on hf
      rw [State.withDrive_drive]
      split
      · rename_i e; exact .inr ⟨e.symm, hf, ⟨on, rfl⟩, rfl⟩
      · exact .inl rfl
  all_goals exact .inl rfl

/-! ## Lines and gathering (R81, R82) -/

@[simp] theorem Fsc.withLine_line (f : Fsc) (l : Line) (x : LineState) : (f.withLine l x).line l = x := by cases l <;> rfl

theorem Fsc.withLine_other (f : Fsc) {l m : Line} (x : LineState) (h : l ≠ m) : (f.withLine m x).line l = f.line l := by
  cases l <;> cases m <;> first | rfl | exact absurd rfl h

/-- A gathering that asks for a channel holds the channel's line, is of its group, and has the answers before it. -/
theorem State.gathering_eq {s : State} {c : Channel} {g : Gather} (h : s.gathering c = some g) :
    s.fsc.line (lineOf (groupOf c)) = .assembling g ∧ g.group = groupOf c ∧
      firstChannel g.group + g.answers.length = c.val := by
  unfold State.gathering at h
  split at h
  · split at h
    · cases h; exact ⟨by assumption, by assumption⟩
    · cases h
  all_goals cases h

/-- The next ask of a gathering is read back as it was put. -/
theorem State.gathering_withGather {s t : State} {c : Channel} {g : Gather} (h : s.gathering c = some g) (ask : Ask) :
    (t.withGather c { g with ask := ask }).gathering c = some { g with ask := ask } := by
  obtain ⟨_, h2, h3⟩ := State.gathering_eq h
  unfold State.gathering State.withGather State.withLine
  simp only [State.withFsc_fsc, Fsc.withLine_line]
  rw [if_pos ⟨h2, h3⟩]

/-- A value is handed on for a channel exactly while its gathering has the third ask outstanding. -/
theorem State.handedOn_eq {s : State} {c : Channel} {g : Gather} {v : Value} (h : s.handedOn c = some (g, v)) :
    s.gathering c = some g ∧ g.ask = .answer v := by
  unfold State.handedOn at h
  split at h
  · split at h
    · cases h; exact ⟨by assumption, by assumption⟩
    all_goals cases h
  · cases h

/-- A jet's or fixture's group is not on the drive line (R1, R78). -/
theorem lineOf_groupOf_ne_drive {c : Channel} (h : 16 ≤ c.val) : lineOf (groupOf c) ≠ .drive := by
  have hg : ¬(groupOf c).val < 16 := by
    rw [groupOf, dif_neg (by omega)]
    split
    · exact Nat.not_lt.2 (Nat.le_add_right ..)
    · exact Nat.not_lt.2 (Nat.le_trans (by decide) (Nat.le_add_right 20 _))
  rw [lineOf, if_neg hg]
  split
  · decide
  · split <;> decide

/-- A pump's group is on the drive line (R1, R78). -/
theorem lineOf_groupOf_pump {c : Channel} (h : c.val < 16) : lineOf (groupOf c) = .drive := by
  rw [groupOf, dif_pos h, lineOf, if_pos h]

/-- The drive line after an exit of the emergency stop (R91, R104). -/
@[simp] theorem State.handOnRejoins_driveLine (s : State) : s.handOnRejoins.fsc.drive = s.fsc.drive := rfl

/-- Every other line after an exit of the emergency stop (R145, R153). -/
theorem State.handOnRejoins_line (s : State) {l : Line} (h : l ≠ .drive) :
    s.handOnRejoins.fsc.line l = (s.fsc.line l).rejoining s.cha := by
  cases l <;> first | rfl | exact absurd rfl h

/-- A line without a third ask outstanding stays as it is. -/
theorem LineState.rejoining_eq (l : LineState) (x : Cha) (h : ∀ g v, l = .assembling g → g.ask ≠ .answer v) :
    l.rejoining x = l := by
  unfold LineState.rejoining Gather.rejoining
  split
  · rename_i g
    split
    · exact absurd ‹_› (h g _ rfl)
    all_goals rfl
  all_goals rfl

/-- Who asks for a jet or a fixture does not change at an exit; a value handed on becomes the start of the channel's rejoin. -/
theorem State.handOnRejoins_gathering (s : State) {c : Channel} (h : 16 ≤ c.val) :
    s.handOnRejoins.gathering c = (s.gathering c).map fun g => g.rejoining s.cha := by
  unfold State.gathering
  rw [State.handOnRejoins_line s (lineOf_groupOf_ne_drive h)]
  cases s.fsc.line (lineOf (groupOf c)) with
  | assembling g =>
    have h1 : (g.rejoining s.cha).group = g.group := by unfold Gather.rejoining; split <;> rfl
    have h2 : (g.rejoining s.cha).answers = g.answers := by unfold Gather.rejoining; split <;> rfl
    simp only [LineState.rejoining, h1, h2]
    split <;> rfl
  | free => rfl
  | assemblingNull d f => rfl
  | sending e f => rfl

/-- All that an exit of the emergency stop does to a value handed on for a jet or a fixture (R145, R153). -/
theorem State.handOnRejoins_handedOn (s : State) {c : Channel} (h : 16 ≤ c.val) :
    s.handOnRejoins.handedOn c = (s.handedOn c).map fun x =>
      let v := (s.cha.records[c].rejoin.map Rejoin.fromValue).getD x.2
      ({ x.1 with ask := .answer v }, v) := by
  unfold State.handedOn
  rw [State.handOnRejoins_gathering s h]
  cases hg : s.gathering c with
  | none => rfl
  | some g =>
    have hn : s.cha.rejoinStart (firstChannel g.group + g.answers.length) =
        fun v => (s.cha.records[c].rejoin.map Rejoin.fromValue).getD v := by
      funext v
      rw [(State.gathering_eq hg).2.2, Cha.rejoinStart, channelOf, dif_pos c.isLt]
    cases ha : g.ask with
    | answer v => simp only [Option.map_some, Gather.rejoining, ha, hn]
    | evaluate => simp only [Option.map_some, Option.map_none, Gather.rejoining, ha]
    | select v => simp only [Option.map_some, Option.map_none, Gather.rejoining, ha]

/-- An exit of the emergency stop leaves a value handed on for a pump (R91, R104). -/
theorem State.handOnRejoins_pump (s : State) {c : Channel} (h : c.val < 16) :
    s.handOnRejoins.handedOn c = s.handedOn c := by
  simp only [State.handedOn, State.gathering, lineOf_groupOf_pump h, Fsc.line, State.handOnRejoins_driveLine]

/-- CHA's part of an exit: a channel without a lockout rejoins from the value last driven on it (R75). -/
theorem State.chaExit_record {s : State} {c : Channel} (h : s.cha.records[c].lockout = none) :
    s.chaExit.cha.records[c] = ⟨none, none, some ⟨s.lastDriven c, s.now, s.tables.limits.rejoinTime c⟩⟩ := by
  unfold State.chaExit State.withCha
  dsimp only
  rw [Fin.getElem_fin, getElem_tabulate, if_neg (by rw [show s.cha.records[(⟨c.val, c.isLt⟩ : Channel)].lockout = none from h]; simp)]

/-! ## Cue lists (R43, R48, R49) -/

/-- Insertion into a list in start order that does not hold the start. -/
theorem insertCue_eq {k : Cue} {l : List Cue} (h : l.Pairwise fun a b => a.start < b.start)
    (fresh : ∀ x ∈ l, x.start ≠ k.start) :
    insertCue k l = (l.filter fun x => x.start < k.start) ++ k :: l.filter fun x => k.start < x.start := by
  induction l with
  | nil => rfl
  | cons a l ih =>
    rw [List.pairwise_cons] at h
    have ha := fresh a (by simp)
    unfold insertCue
    split
    · have before : l.filter (fun x => x.start < k.start) = [] :=
        List.filter_eq_nil_iff.mpr fun x hx => by have := h.1 x hx; simp; omega
      have behind : l.filter (fun x => k.start < x.start) = l :=
        List.filter_eq_self.mpr fun x hx => by have := h.1 x hx; simp; omega
      rw [List.filter_cons_of_neg (by simp; omega), List.filter_cons_of_pos (by simp; omega), before, behind]
      rfl
    · rw [ih h.2 fun x hx => fresh x (by simp [hx]), List.filter_cons_of_pos (by simp; omega),
        List.filter_cons_of_neg (by simp; omega)]
      rfl

theorem insertCue_length (k : Cue) (l : List Cue) : (insertCue k l).length = l.length + 1 := by
  induction l with
  | nil => rfl
  | cons a l ih => unfold insertCue; split <;> simp [ih]

/-- A list put in the store, and the records it takes or gives up, are one change of the state. -/
theorem Cst.withList_cues (s : State) (c : Channel) (l : List Cue) {n : Nat}
    (h : s.cst.free + (s.cst.lists[c]).length - l.length = n) :
    s.withCst (s.cst.withList c l) = s.withCues c l n := by subst h; rfl

/-- On a list in start order the update touches the one cue of its start. -/
theorem CueEntry.map_update (e : CueEntry) {pre post : List Cue} {k : Cue}
    (h : (pre ++ k :: post).Pairwise fun a b => a.start < b.start)
    (hk : k.start = e.start) : (pre ++ k :: post).map e.update = pre ++ e.update k :: post := by
  rw [List.pairwise_append, List.pairwise_cons] at h
  have off : ∀ l : List Cue, (∀ x ∈ l, x.start ≠ e.start) → l.map e.update = l := fun l hl =>
    (List.map_congr_left fun x hx => if_neg (hl x hx)).trans (List.map_id l)
  rw [List.map_append, List.map_cons, off pre fun x hx => ?_, off post fun x hx => ?_]
  · have := h.2.1.1 x hx; omega
  · have := h.2.2 x hx k (by simp); omega

/-- All that the storing of one checked entry can do (R43): what becomes of it, and on a list that obeys the second law which list it
leaves. -/
theorem storeCue_taken (s : State) (e : CueEntry) (n : Tally) :
    ∃ o, (storeCue e s.cst n).2 = n.take o ∧ (∀ r, o = .refused r → r = .poolFull) ∧
      (CueListLaw s.cst.lists[e.channel] →
        (∀ pre k post, s.cst.lists[e.channel] = pre ++ k :: post → k.start = e.start → o = .second ∧
          s.withCst (storeCue e s.cst n).1 = s.withCues e.channel (pre ++ e.update k :: post) s.cst.free) ∧
        ((∀ k ∈ s.cst.lists[e.channel], k.start ≠ e.start) →
          (∀ k post, s.cst.lists[e.channel] = k :: post → k.isActive = true → e.start < k.start →
            o = .first ∧ s.withCst (storeCue e s.cst n).1 = s.withCues e.channel (e.cue :: post) s.cst.free) ∧
          ((∀ k ∈ s.cst.lists[e.channel], k.isActive = true → k.start < e.start) →
            (s.cst.free = 0 → o = .refused .poolFull ∧ s.withCst (storeCue e s.cst n).1 = s) ∧
            (0 < s.cst.free → o = .first ∧ s.withCst (storeCue e s.cst n).1 =
              s.withCues e.channel ((s.cst.lists[e.channel].filter fun k => k.start < e.start) ++
                e.cue :: s.cst.lists[e.channel].filter fun k => e.start < k.start) (s.cst.free - 1))))) := by
  unfold storeCue
  simp only
  by_cases hany : s.cst.lists[e.channel].any (fun k => k.start = e.start) = true
  · rw [if_pos hany]
    refine ⟨.second, rfl, by simp, fun hl => ⟨fun pre k post hp hk => ⟨rfl, ?_⟩, fun hn => ?_⟩⟩
    · rw [Cst.withList_cues s _ _ (n := s.cst.free) (by simp), hp, CueEntry.map_update e (hp ▸ hl.1) hk]
    · obtain ⟨x, hx, hx2⟩ := List.any_eq_true.mp hany
      exact absurd (of_decide_eq_true hx2) (hn x hx)
  rw [if_neg hany]
  have hn : ∀ k ∈ s.cst.lists[e.channel], k.start ≠ e.start := by simpa using hany
  have first : ∀ (o : Taken) (t : State) pre k post, s.cst.lists[e.channel] = pre ++ k :: post → k.start = e.start →
      o = .second ∧ t = s.withCues e.channel (pre ++ e.update k :: post) s.cst.free :=
    fun o t pre k post hp hk => absurd hk (hn k (by rw [hp]; simp))
  by_cases h2 : s.cst.lists[e.channel].any (fun k => k.isActive && decide (e.start < k.start)) = true
  · rw [if_pos h2]
    refine ⟨.first, rfl, by simp, fun hl => ⟨first _ _, fun _ => ⟨fun k post hp hka hk => ⟨rfl, ?_⟩, fun hact => ?_⟩⟩⟩
    · rw [Cst.withList_cues s _ (insertCue e.cue _) (n := s.cst.free) ?_]
      all_goals
        have h1 := hl.1
        rw [hp] at hl h1 ⊢
        rw [List.filter_cons_of_neg (by simp [hka, hk]),
          List.filter_eq_self.mpr (fun x hx => by have := hl.2 x hx; simp [Cue.isActive, this])]
      · congr 1
        cases post with
        | nil => rfl
        | cons x xs =>
          have := (List.pairwise_cons.mp h1).1 x (by simp)
          exact if_pos (show e.start < x.start by omega)
      · rw [insertCue_length, List.length_cons]; omega
    · obtain ⟨x, hx, hx2⟩ := List.any_eq_true.mp h2
      simp at hx2
      have := hact x hx hx2.1; omega
  rw [if_neg h2]
  have hno : ∀ k ∈ s.cst.lists[e.channel], k.isActive = true → ¬ e.start < k.start := by
    intro k hk ha hlt
    exact h2 (List.any_eq_true.mpr ⟨k, hk, by simp [ha, hlt]⟩)
  by_cases hf : s.cst.free = 0
  · rw [if_pos hf]
    refine ⟨.refused .poolFull, rfl, by simp, fun hl => ⟨first _ _, fun _ =>
      ⟨fun k post hp hka hk => ?_, fun _ => ⟨fun _ => ⟨rfl, rfl⟩, fun h => by omega⟩⟩⟩⟩
    exact absurd hk (hno k (by rw [hp]; simp) hka)
  · rw [if_neg hf]
    refine ⟨.first, rfl, by simp, fun hl => ⟨first _ _, fun _ =>
      ⟨fun k post hp hka hk => ?_, fun _ => ⟨fun h => absurd h hf, fun _ => ⟨rfl, ?_⟩⟩⟩⟩⟩
    · exact absurd hk (hno k (by rw [hp]; simp) hka)
    · rw [insertCue_eq hl.1 hn]
      refine Cst.withList_cues s _ _ ?_
      have := insertCue_length e.cue s.cst.lists[e.channel]
      rw [insertCue_eq hl.1 hn] at this
      rw [this]; omega

/-- What an evaluation leaves of the cue store. -/
theorem State.evaluate_cst (s : State) (c : Channel) :
    let new := activatedList s.cst.lists[c] s.cst.shown[c] s.showTime s.now
    (s.evaluate c).cst.lists = s.cst.lists.set c new ∧
    (s.evaluate c).cst.free = s.cst.free + (s.cst.lists[c]).length - new.length ∧
    (s.evaluate c).cst.skipped = min (s.cst.skipped + skippedCues s.cst.lists[c] s.showTime) Config.count32Max ∧
    (s.evaluate c).cst.shown = s.cst.shown.set c (listValue new s.cst.shown[c] s.showTime s.now) := by
  unfold State.evaluate
  simp only
  split
  · simp only [State.poolLowTest_lists, State.poolLowTest_free, State.withCst_cst, State.poolLowTest_shown,
      State.poolLowTest_skipped]
    exact ⟨rfl, rfl, rfl, rfl⟩
  · exact ⟨rfl, rfl, rfl, rfl⟩

/-! ## The budget fit (R107) -/

/-- The fit is the largest speed not above the demand whose power is not above the headroom. -/
theorem fitSpeed_spec (prated h d : Nat) :
    fitSpeed prated h d ≤ d ∧ powerAt prated (fitSpeed prated h d) ≤ h ∧
      ∀ x, x ≤ d → powerAt prated x ≤ h → x ≤ fitSpeed prated h d := by
  induction d with
  | zero => exact ⟨by simp [fitSpeed], by simp [fitSpeed, powerAt], fun x hx _ => by simp [fitSpeed]; omega⟩
  | succ d ih =>
    unfold fitSpeed
    split
    · rename_i hp; exact ⟨le_refl _, hp, fun x hx _ => hx⟩
    · rename_i hp
      refine ⟨by omega, ih.2.1, fun x hx hpx => ih.2.2 x ?_ hpx⟩
      by_contra hc
      obtain rfl : x = d + 1 := by omega
      exact hp hpx

/-! ## Output tables (R143, R151) -/

theorem overwrite_entry {α : Type} {n : Nat} (t : Vector α n) (first : Nat) (l : List α) (j : Fin n) :
    (overwrite t first l)[j] =
      if first ≤ j.val ∧ j.val < first + l.length then (l[j.val - first]?).getD t[j] else t[j] := by
  unfold overwrite
  rw [Fin.getElem_fin, getElem_tabulate]

/-- The limit of an emergency stop, value by value (R143). -/
theorem State.limitedOutputs_entry (s : State) (first : Nat) (outputs : List Nat) (k : Nat) :
    (s.limitedOutputs first outputs)[k]? =
      (outputs[k]?).map fun v => if s.estop then min v ((s.out.valves[first + k]?).getD v) else v := by
  unfold State.limitedOutputs
  cases s.estop <;> simp

@[simp] theorem State.limitedOutputs_length (s : State) (first : Nat) (outputs : List Nat) :
    (s.limitedOutputs first outputs).length = outputs.length := by
  unfold State.limitedOutputs
  cases s.estop <;> simp

/-! ## Claims (R59) -/

/-- One for a record with a claim, none for another. -/
def Ownership.claimed (o : Ownership) : Nat := if o.claim.isSome then 1 else 0

theorem claimsIn_eq (records : Vector Ownership 336) : claimsIn records = (records.toList.map Ownership.claimed).sum := by
  unfold claimsIn
  generalize records.toList = l
  induction l with
  | nil => rfl
  | cons a l ih =>
    rw [List.filter_cons, List.map_cons, List.sum_cons, ← ih]
    cases h : a.claim <;> simp [Ownership.claimed, h]; omega

/-- The number of claims when one record is replaced. -/
theorem claimsIn_set (records : Vector Ownership 336) (c : Channel) (o : Ownership) :
    claimsIn (records.set c o) + records[c].claimed = claimsIn records + o.claimed := by
  have := sum_map_set records.toList c.val (by rw [Vector.length_toList]; exact c.isLt) Ownership.claimed o
  simpa only [claimsIn_eq, Vector.toList_set, Vector.getElem_toList, Fin.getElem_fin] using this

/-! ## Replies of drives (R122) -/

/-- A STATE or REFUSED frame from the drive addressed, with its check, is the good reply of its window. -/
theorem goodReply_eq_some (d : Pump) (k : ReplyKind) (later : List ReplyFrame) (h : k ≠ .other) :
    goodReply d (⟨d.val + 1, k, replyCheck (d.val + 1) k⟩ :: later) = some k := by
  cases k <;> simp_all [goodReply]

/-- Anything else at the head of the window is no reply. -/
theorem goodReply_eq_none (d : Pump) (window : List ReplyFrame)
    (h : ∀ w, window.head? = some w → w.check ≠ replyCheck w.address w.kind ∨ w.address ≠ d.val + 1 ∨ w.kind = .other) :
    goodReply d window = none := by
  unfold goodReply
  split
  · rename_i f hf
    rcases h f hf with h | h | h
    · split <;> first | rfl | exact if_neg fun e => h e.2
    · split <;> first | rfl | exact if_neg fun e => h e.1
    · rw [h]
  · rfl

end Sys2Proof.Machine
end

