-- ==== Sys2Proof/Tests/Slice0.lean ====
section
/-! SUPPORT. Small checks of the model against the worked cases of spec/, and for every obligation with hypotheses a witness
that meets them. -/

namespace Sys2Proof.Tests

open Sys2Proof Sys2Proof.Machine

-- One theorem at a time: elaborated side by side, the many kernel evaluations below each hold a thread of their own.
set_option Elab.async false

/-! ## Helpers -/

/-- The next state of an outcome. -/
def went : Host.Outcome State Fault Refusal → State
  | .next t => t
  | .fault _ => State.reset
  | .refused _ => State.reset

/-- A request with tag 55h in execution on a port. -/
def asked (s : State) (p : Port) (kind : Byte) (body : List Byte) : State :=
  s.withPort p { s.port p with executing := some ⟨⟨kind, 0x55, body⟩, s.clock.now⟩ }

theorem asked_inExecution (s : State) (p : Port) (kind : Byte) (body : List Byte) :
    (asked s p kind body).InExecution p kind 0x55 body := ⟨s.clock.now, by cases p <;> rfl⟩

/-- The result and body of the last response on a port. -/
def replied (s : State) (p : Port) : Option (Result × List Byte) := (s.port p).outgoing.getLast?.map fun r => (r.result, r.body)

/-- The kinds, subjects and details on a port's notice list. -/
def noticed (s : State) (p : Port) : List (NoticeKind × Nat × Nat) := (s.port p).notices.map fun n => (n.kind, n.subject, n.detail)

/-- The device configured with the default tables, in a show state, at a show position and a local time. -/
def atShow (x : ShowState) (position now : Nat) : State := { State.reset with
  seq := { Seq.cold with
    showState := x
    holdCause := if x = .hold then some .starved else none
    fadeEnd := if x = .fading then some (position + 1) else none
    fadeCause := if x = .fading then some .stopped else none }
  plu := { Plu.cold with position := position }
  cfg := ⟨.valid, defaultTables⟩
  clock := ⟨BitVec.ofNat 32 now, 1, true⟩ }

/-- A configured device with no show. -/
def idle : State := atShow .idle 0 1000000

/-- The state with an emergency stop in effect, entered by the latch. -/
def stopped (s : State) : State := s.withPlm { s.plm with latch := true, stop := some ⟨.latch, s.clock.now, 0⟩ }

/-- A silent block of 240 frames. -/
def block (position : Nat) : AudioBlock := ⟨position, List.replicate 240 ⟨0, 0⟩⟩

/-- `n` contiguous silent blocks of 240 frames. -/
def blocks (position n : Nat) : List AudioBlock := (List.range n).map fun k => block (position + 240 * k)

/-- The body of an AUDIO_BLOCK of `n` silent frames. -/
def audio (position n : Nat) : List Byte := bytes 4 position ++ bytes 2 n ++ List.replicate (6 * n) 0

/-- The state with an audio queue. -/
def playing (s : State) (queue : List AudioBlock) : State := s.withPlu { s.plu with queue := queue }

/-- The state with a limit changed. -/
def limited (s : State) (f : Limits → Limits) : State := s.withTables { s.tables with limits := f s.tables.limits }

/-- A cue. -/
def cue (start duration : Nat) (curve : Curve) (target : Value) (state : CueState) : Cue :=
  ⟨start, duration, curve, target, .loaded, state⟩

/-- The state with one channel's cue list and show value, the records of the list taken from the free list. -/
def cued (s : State) (c : Channel) (l : List Cue) (shown : Value) : State := s.withCst { s.cst with
  lists := s.cst.lists.set c l
  shown := s.cst.shown.set c shown
  free := s.cst.free + s.cst.lists[c].length - l.length }

/-- The scheduler asks, for channel `c`, the ask given. -/
def asking (s : State) (c : Channel) (a : Ask) : State := s.withGather c ⟨groupOf c,
  List.replicate (c.val - firstChannel (groupOf c)) (if c.val < 144 then .opening 0 else .lamp ⟨0, 0, 0, 0⟩), a⟩

/-- A drive that is PRESENT in a power state, with nothing pending. -/
def drive (power : Power) : DriveRecord := ⟨true, power, none, none, none, 0, none, 0⟩

/-- The state with a PRESENT drive, and its pump's allowed speed, commanded speed and share. -/
def driven (s : State) (i : Pump) (d : DriveRecord) (allowed commanded : Nat) : State :=
  let p : PumpState := ⟨allowed, commanded, shareFor s.tables.pumps[i].prated d commanded, s.clock.now - 20⟩
  let v := s.pgv.pumps.set i p
  (s.withDrive i d).withPgv { s.pgv with pumps := v, total := ledgerTotal v }

/-- Telemetry of a drive at a speed, with a fault code. -/
def telemetry (speed : Nat) (code : Byte) : Telemetry := ⟨speed, 0, 0, 0, code⟩

/-- The five value bytes of a level (R41, R185). -/
def levelBytes (n : Nat) : List Byte := bytes 2 n ++ [0, 0, 0]

/-! ## Commands, their operands, the queue -/

theorem test_wf_refuses_pause : Instr.wf (.pause .plantPort) = false := by decide
theorem test_wf_refuses_resume : Instr.wf (.resume .plantPort) = false := by decide
theorem test_wf_refuses_stop : Instr.wf (.stop .plantPort) = false := by decide
theorem test_wf_refuses_volume : Instr.wf (.volume .plantPort) = false := by decide
theorem test_wf_refuses_frameEnd : Instr.wf (.frameEnd .drive) = false := by decide
theorem test_wf_admits : Instr.wf (.pause .consolePort) = true ∧ Instr.wf (.frameEnd .valve) = true := by decide

/-- No row of the table gives bits (notes/assumptions/3). -/
theorem test_no_bits : decodeTableWord 16 0x1234 = none := by decide

theorem witness_StepRunsTheFrontCommand : State.reset.pending = [] := rfl

/-- The command at the front is taken and leaves the queue (00_scope). -/
theorem test_step_takes_the_front :
    (went (step { State.reset with pending := [.resetNRelease, .slotExpiry] })).pending = [.slotExpiry] := by decide +kernel

/-! ## Master ports -/

/-- A STATUS frame, tag 7, laid out as R184 says. -/
def statusFrame : List Byte := [0x01, 7, 0, 0] ++ bytes 2 (crc [0x01, 7, 0, 0]).toNat

/-- A transaction in progress with six status bytes and no response. -/
def inTransaction (s : State) (p : Port) : State := s.withPort p { s.port p with transaction := some ⟨List.replicate 6 0, none⟩ }

/-- The state with a number of urgent and bulk requests waiting on a port. -/
def queued (s : State) (p : Port) (urgent bulk : Nat) : State := s.withPort p { s.port p with
  urgent := List.replicate urgent ⟨0x01, 1, []⟩, bulk := List.replicate bulk ⟨0x18, 2, []⟩ }

/-- The state with a number of responses waiting on a port. -/
def responses (s : State) (p : Port) (n : Nat) : State := s.withPort p { s.port p with
  outgoing := List.replicate n ⟨0x01, 3, .ok, []⟩, attention := true }

/-- R184: the check of the nine bytes 31h to 39h. -/
theorem test_check : crc [0x31, 0x32, 0x33, 0x34, 0x35, 0x36, 0x37, 0x38, 0x39] = 0x29B1#16 := by decide +kernel

/-- 10.7, transaction 1: the record becomes ADMITTED with the tag. -/
theorem test_admitted :
    let t := went (exec (.transactionEnd .showPort statusFrame) (inTransaction idle .showPort))
    t.mpShow.urgent = [⟨0x01, 7, []⟩] ∧ t.mpShow.admission = .admitted ∧ t.mpShow.admissionTag = 7 := by decide +kernel

/-- 10.7, transaction 3: select released two bytes early is ABORTED and counted. -/
theorem test_aborted :
    let t := went (exec (.transactionEnd .showPort (statusFrame.take 4)) (inTransaction idle .showPort))
    t.mpShow.urgent = [] ∧ t.mpShow.admission = .aborted ∧ t.mpShow.admissionTag = 7 ∧ t.mpShow.errorCount = 1 := by
  decide +kernel

/-- R172: the status bytes of a port with nothing waiting, the configuration VALID and the show IDLE. -/
theorem test_transaction_start :
    (went (exec (.transactionStart .showPort) idle)).mpShow.transaction = some ⟨[4, 0, 0, 0, 0, 1], none⟩ := by decide +kernel

/-- R194: no transaction is taken while RESET_N is held, and one is after its release. -/
theorem test_transaction_awaits_release :
    let u := went (exec .resetNRelease State.reset)
    (went (exec (.transactionStart .plantPort) State.reset)).mpPlant = .cold ∧
      (went (exec (.transactionStart .plantPort) u)).mpPlant.transaction = some ⟨[0, 0, 0, 0, 0, 0], none⟩ := by decide +kernel

theorem witness_TransactionStartFixesWhatIsShiftedOut :
    State.reset.clock.released = false ∧ idle.clock.released = true ∧
    (responses idle .showPort 1).clock.released = true ∧ (idle.port .showPort).transaction = none ∧ (idle.port .showPort).outgoing = [] ∧
    ((responses idle .showPort 1).port .showPort).transaction = none ∧
    ((responses idle .showPort 1).port .showPort).outgoing = [⟨0x01, 3, .ok, []⟩] := by decide +kernel

/-- Each clause of the admission at the edge of its queue and of the sum. -/
theorem witness_AWellFormedFrameIsAdmittedOrRefusedForRoom :
    (∀ p : Port, ((inTransaction idle p).port p).transaction = some ⟨List.replicate 6 0, none⟩) ∧
    (0x01#8 ≠ 0 ∧ classOf 0x01 = .urgent ∧ 0x18#8 ≠ 0 ∧ classOf 0x18 = .bulk ∧ (List.replicate 1536 0#8).length ≤ 1536) ∧
    (let s := responses (queued idle .showPort 3 7) .showPort 5;
      s.mpShow.urgent.length < 4 ∧ s.mpShow.bulk.length < 8 ∧
        s.mpShow.outgoing.length + s.mpShow.urgent.length + s.mpShow.bulk.length + 0 < 16) ∧
    (4 ≤ (queued idle .showPort 4 8).mpShow.urgent.length ∧ 8 ≤ (queued idle .showPort 4 8).mpShow.bulk.length) ∧
    16 ≤ (responses idle .showPort 16).mpShow.outgoing.length := by
  refine ⟨fun p => by cases p <;> rfl, ?_, ?_, ?_, ?_⟩ <;> decide +kernel

/-- A read, the longest and shortest frames of each fault. -/
theorem witness_FaultyFramesAreCountedAndNotExecuted :
    ((inTransaction idle .showPort).port .showPort).transaction = some ⟨List.replicate 6 0, none⟩ ∧
    (∃ tr : Transaction, tr.header.length + 2 ≤ (List.replicate 8 1#8).length ∧ ¬ tr.header.length + 2 ≤ [1#8, 2, 0].length ∧
      tr.response = some [0x81, 3]) ∧
    ([0#8, 1] ≠ [] ∧ [0#8, 1].head? = some 0) ∧
    ([1#8, 2, 0].head? ≠ some 0 ∧ [1#8, 2, 0].length < 4) ∧
    (4 ≤ [1#8, 2, 6, 1].length ∧ 1536 < field [1#8, 2, 6, 1] 2 2) ∧
    (field [1#8, 2, 6, 0] 2 2 ≤ 1536 ∧ [1#8, 2, 6, 0].length < 4 + field [1#8, 2, 6, 0] 2 2 + 2) ∧
    (4 + field [1#8, 2, 0, 0, 0, 0] 2 2 + 2 ≤ [1#8, 2, 0, 0, 0, 0].length ∧
      (crc ([1#8, 2, 0, 0, 0, 0].take 4)).toNat ≠ field [1#8, 2, 0, 0, 0, 0] 4 2) :=
  ⟨by decide +kernel, ⟨⟨List.replicate 6 0, some [0x81, 3]⟩, by decide, by decide, rfl⟩, by decide +kernel⟩

/-- R172: a response clocked out whole by a read leaves the queue, and one byte less leaves it; past the last fixed byte FFh is
shifted out. -/
theorem test_collected :
    let s := responses idle .showPort 2
    let u := s.withPort .showPort { s.mpShow with transaction := some ⟨List.replicate 6 0, some [0x81, 3]⟩ }
    let t := fun n => went (exec (.transactionEnd .showPort (List.replicate n 0)) u)
    (t 8).mpShow.outgoing.length = 1 ∧ (t 7).mpShow.outgoing.length = 2 ∧
    (t 10).mpShow.shiftedOut = [0, 0, 0, 0, 0, 0, 0x81, 3, 0xFF, 0xFF] := by decide +kernel

/-- The urgent queue first, then the bulk one; an unknown kind, a kind not permitted, a permitted one. -/
theorem witness_RequestsAreDispatchedInOrderAndAnsweredOnce :
    ((queued idle .showPort 1 1).mpShow.executing = none ∧ (queued idle .showPort 1 1).mpShow.urgent = [⟨0x01, 1, []⟩]) ∧
    ((queued idle .showPort 0 1).mpShow.executing = none ∧ (queued idle .showPort 0 1).mpShow.urgent = [] ∧
      (queued idle .showPort 0 1).mpShow.bulk = [⟨0x18, 2, []⟩]) ∧
    (catalogue 0xFF).isNone = true ∧ (catalogue 0x30).map (·.permits .showPort) = some false ∧
    (catalogue 0x18).map (·.permits .showPort) = some true := by decide +kernel

/-- 10.7: an urgent request is taken before a bulk one. -/
theorem test_dispatch_urgent_first :
    (went (exec (.requestDispatch .showPort) (queued idle .showPort 1 1))).mpShow.executing =
      some ⟨⟨0x01, 1, []⟩, 1000000⟩ := by decide +kernel

theorem witness_StatusReportsAndChangesNothing :
    let s := asked idle .plantPort 0x01 []
    (s.port .plantPort).executing = some ⟨⟨0x01, 0x55, []⟩, 1000000⟩ ∧ s.plu.position < 4294967296 ∧ s.pgv.total < 4294967296 ∧
    (s.port .plantPort).notices.length ≤ 32 ∧ s.plu.expectedNext < 4294967296 ∧ s.plu.lead < 4294967296 := by decide +kernel

/-- R178: the part code, the VALID configuration state and the IDLE show state lead the STATUS body. -/
theorem test_status :
    (replied (went (exec (.status .plantPort) (asked idle .plantPort 0x01 []))) .plantPort).map
      (fun r => (r.1, r.2.take 4)) = some (.ok, [0x48, 0x20, 2, 1]) := by decide +kernel

/-- R179, R180: the channel or pump, then its owner or presence and power state. -/
theorem test_reads :
    (replied (went (exec (.readChannel .consolePort) (asked (idle.withRecord 56 ⟨none, some ⟨.level 0, false, 7⟩, none⟩)
      .consolePort 0x03 [0, 56]))) .consolePort).map (fun r => (r.1, r.2.take 3)) = some (.ok, [0, 56, 0]) ∧
    (replied (went (exec (.readDrive .consolePort) (asked (driven idle 9 (drive .on) 1000 700) .consolePort 0x04 [9])))
      .consolePort).map (fun r => (r.1, r.2.take 3)) = some (.ok, [9, 1, 2]) := by decide +kernel

/-- A jet half way through a rejoin, with an ACTIVE cue and an opening of 300 sent to it. -/
def reported : State :=
  let s := (cued idle 56 [cue 999 5 .ease (.level 7) (.active (.level 9) none)] (.level 760)).withRecord 56
    ⟨none, none, some ⟨.level 100, 999500, 1000⟩⟩
  s.withOut { s.out with valves := s.out.valves.set 40 300 }

/-- R185: the current output value 430, the show value 760, the counts, the ACTIVE cue and the opening 300. -/
theorem test_readChannel_fields :
    (replied (went (exec (.readChannel .plantPort) (asked reported .plantPort 0x03 [0, 56]))) .plantPort).map
      (fun r => (r.2.drop 33).take 16) = some (levelBytes 100 ++ bytes 4 999500 ++ bytes 2 1000 ++ levelBytes 430) ∧
    (replied (went (exec (.readChannel .plantPort) (asked reported .plantPort 0x03 [0, 56]))) .plantPort).map
      (fun r => r.2.drop 49) = some (levelBytes 760 ++ [0, 1, 0, 0, 1] ++ bytes 4 999 ++ bytes 4 5 ++ [2] ++ levelBytes 7 ++ [0] ++
        levelBytes 9 ++ [0x01, 0x2C, 0xFF, 0xFF]) := by decide +kernel

/-- R185: two misses, the telemetry and its age, the allowed and the commanded speed. -/
theorem test_readDrive_fields :
    (replied (went (exec (.readDrive .plantPort) (asked (driven idle 9
      { drive .on with misses := 2, telemetry := some (telemetry 700 0), age := 20 } 1000 690) .plantPort 0x04 [9]))) .plantPort).map
      (fun r => (r.2.drop 3).take 31) = some (List.replicate 6 0xFF ++ [0, 0xFF, 0xFF, 0xFF, 0xFF, 0xFF, 0, 2, 1] ++ bytes 2 700 ++
        List.replicate 6 0 ++ bytes 4 20 ++ bytes 2 1000 ++ bytes 2 690) := by decide +kernel

/-- Bodies at the edges; a channel and a drive with nothing present, and for every part one that has it. -/
theorem witness_ReadsReportAndChangeNothing :
    let s := fun base kind body => asked base .showPort kind body
    let held := (idle.withRecord 15 ⟨some ⟨.level 1, .level 2, 0, 10, 5⟩, none, none⟩).withRecord 335
      ⟨none, some ⟨.colour ⟨1, 2, 3, 4, 5⟩, true, 9⟩, none⟩
    let full := idle.withDrive 15 ⟨true, .poweringUp, some ⟨.powerOn, 5, .off, false⟩, some 9, none, 1, some (telemetry 700 0), 20⟩
    let failed := fun cause => idle.withDrive 15 { drive .fault with fault := some cause }
    (∀ base kind body, (s base kind body).InExecution .showPort kind 0x55 body) ∧
    ([0#8].length ≠ 2 ∧ 335 < field (bytes 2 336) 0 2 ∧ (bytes 2 335).length = 2 ∧
      field (bytes 2 335) 0 2 = (335 : Channel).val) ∧
    ((held.cha.records[(15 : Channel)].claim.isSome = true ∧ held.cha.records[(15 : Channel)].lockout = none) ∧
      held.cha.records[(335 : Channel)].lockout.isSome = true ∧ reported.cha.records[(56 : Channel)].rejoin.isSome = true ∧
      idle.cha.records[(335 : Channel)] = ⟨none, none, none⟩) ∧
    (idle.cst.lists[(15 : Channel)] = [] ∧
      reported.cst.lists[(56 : Channel)] = [cue 999 5 .ease (.level 7) (.active (.level 9) none)]) ∧
    (pumpChannel 15 = 15 ∧ jetChannel 127 = 143 ∧ fixtureChannel 191 = 335) ∧
    ([0#8, 0].length ≠ 1 ∧ 15 < field (bytes 1 16) 0 1 ∧ (bytes 1 15).length = 1 ∧ field (bytes 1 15) 0 1 = (15 : Pump).val) ∧
    (full.dlc[(15 : Pump)].pending.isSome = true ∧ full.dlc[(15 : Pump)].deadline = some 9 ∧
      full.dlc[(15 : Pump)].telemetry = some (telemetry 700 0) ∧
      (failed (.trip 255)).dlc[(15 : Pump)].fault = some (.trip 255) ∧
      (failed .powerTimeout).dlc[(15 : Pump)].fault = some .powerTimeout ∧ idle.dlc[(15 : Pump)].telemetry = none) :=
  ⟨fun _ _ _ => asked_inExecution .., by decide +kernel⟩

theorem witness_NoticesRemovesTheOldest :
    (asked idle .consolePort 0x02 []).InExecution .consolePort 0x02 0x55 [] := asked_inExecution ..

/-- 10.7: NOTICES takes sixteen of twenty notices and clears the notices-dropped flag. -/
theorem test_notices :
    let s := asked idle .showPort 0x02 []
    let n := (List.range 20).map fun k => (⟨.slotOverrun, k, 1, 0⟩ : Notice)
    let t := went (exec (.notices .showPort) (s.withPort .showPort { s.mpShow with notices := n, dropped := true }))
    t.mpShow.notices.length = 4 ∧ t.mpShow.dropped = false ∧
      (replied t .showPort).map (fun r => (r.2.length, r.2.take 1)) = some (177, [16]) := by decide +kernel

/-- Bodies, show states and bounds at which each request of the statement is refused. -/
theorem witness_RefusedRequestsChangeNothing :
    let s := fun base p kind body => asked base p kind body
    let early := bytes 4 5 ++ bytes 4 5 ++ bytes 1 0
    let clear := bytes 2 335 ++ bytes 2 335 ++ bytes 4 0
    (∀ base p kind body, (s base p kind body).InExecution p kind 0x55 body) ∧
    ([0#8] ≠ [] ∧ [0#8].length ≠ 9 ∧ early.length = 9) ∧
    ((s (stopped idle) .showPort 0x10 early).estop = true ∧ (s (stopped idle) .consolePort 0x20 (bytes 2 335)).estop = true) ∧
    ((s State.reset .showPort 0x10 early).estop = false ∧
      (s State.reset .showPort 0x10 early).seq.showState = .unconfigured) ∧
    ((s (atShow .running 0 0) .showPort 0x10 early).estop = false ∧
      (s (atShow .running 0 0) .showPort 0x10 early).seq.showState ≠ .unconfigured ∧
      (s (atShow .running 0 0) .showPort 0x10 early).seq.showState ≠ .idle) ∧
    ((s idle .showPort 0x10 early).estop = false ∧ (s idle .showPort 0x10 early).seq.showState = .idle ∧
      field early 4 4 ≠ 0xFFFFFFFF ∧ min (field early 4 4) 86400000 ≤ min (field early 0 4) 86399999) ∧
    ((List.replicate 16 0#8).length % 16 = 0 ∧ (List.replicate 1024 0#8).length ≤ 1024 ∧
      (List.replicate 1024 0#8).length % 16 = 0) ∧
    (clear.length = 8 ∧ field clear 2 2 ≤ 335 ∧ field clear 0 2 ≤ field clear 2 2) ∧
    ((bytes 2 335).length % 2 = 0 ∧ (List.replicate 128 0#8).length ≤ 128) ∧
    ((bytes 2 335 ++ List.replicate 9 0).length = 11 ∧
      field (bytes 2 335 ++ List.replicate 9 0) 0 2 = (335 : Channel).val) ∧
    (field (audio 5 0) 4 2 = 0 ∧ 240 < field (audio 5 241) 4 2 ∧ (audio 5 3).length ≠ 6 + 6 * field (audio 5 4) 4 2 ∧
      4294967296 < field (audio 4294967295 2) 0 4 + field (audio 4294967295 2) 4 2) ∧
    (([] : List Byte).length = 0 ∧ (List.replicate 15 0#8).length % 16 ≠ 0 ∧ 1024 < (List.replicate 1040 0#8).length) ∧
    (335 < field (bytes 2 0 ++ bytes 2 336) 2 2 ∧ field (bytes 2 2 ++ bytes 2 1) 2 2 < field (bytes 2 2 ++ bytes 2 1) 0 2) ∧
    ((s (stopped idle) .showPort 0x18 []).estop = true ∧ (s (atShow .fading 0 0) .showPort 0x19 clear).seq.showState = .fading) ∧
    ((List.replicate 129 0#8).length % 2 = 1 ∧ 128 < (List.replicate 130 0#8).length ∧ 335 < field (bytes 2 336) 0 2) ∧
    (let held := idle.withRecord 335 ⟨none, some ⟨.level 0, false, 7⟩, none⟩
     (s held .consolePort 0x21 []).cha.records[(335 : Channel)].lockout ≠ none ∧
      (s idle .consolePort 0x21 []).cha.records[(335 : Channel)].lockout = none ∧
      (s idle .consolePort 0x21 []).cha.records[(335 : Channel)].claim = none) ∧
    ((List.replicate 8 0#8).length < 9 ∧ 135 < (List.replicate 137 0#8).length ∧ (List.replicate 10 0#8).length % 2 = 0) ∧
    ([0#8].length ≠ 2 ∧ 15 < field [16#8, 1] 0 1 ∧ 1 < field [15#8, 2] 1 1 ∧ 15 < field [16#8] 0 1) :=
  ⟨fun _ _ _ _ => asked_inExecution .., by decide +kernel⟩

/-- A port whose three laws hold, at the edge of each, and the step of one command. -/
theorem witness_EveryStepKeepsThePortLaws :
    let s : State := { responses (queued idle .showPort 4 8) .showPort 4 with pending := [.coldReset] }
    (∃ t, step s = .next t) ∧ (s.port .showPort).NoticeLaw ∧ (s.port .showPort).CapacityLaw ∧
      (s.port .showPort).AttentionLaw :=
  ⟨⟨_, rfl⟩, ⟨by decide, .nil⟩, ⟨by decide, by decide, by decide⟩, ⟨fun _ => .inl (by decide +kernel), fun _ => rfl⟩⟩

/-! ## Show sequencer -/

/-- The body of ARM (R6). -/
def armBody (startMs endMs silent : Nat) : List Byte := bytes 4 startMs ++ bytes 4 endMs ++ bytes 1 silent

/-- 1.8: ARM at 120,000 ms with its end at 300,000 ms. -/
theorem test_arm :
    let t := went (exec .arm (driven (asked idle .showPort 0x10 (armBody 120000 300000 0)) 4 (drive .off) 1000 0))
    t.plu.position = 5760000 ∧ t.seq.endPosition = some 14400000 ∧ t.seq.showState = .armed ∧
      t.dlc[(4 : Pump)].pending = some ⟨.powerOn, 1000000, .off, false⟩ ∧ noticed t .consolePort = [(.showState, 0, 5760000)] := by
  decide +kernel

theorem witness_ArmPositionsTheShow :
    let s := fun endMs => asked idle .showPort 0x10 (armBody 86399999 endMs 0)
    (∀ endMs, (s endMs).InExecution .showPort 0x10 0x55 (armBody 86399999 endMs 0) ∧ (s endMs).estop = false ∧
      (s endMs).seq.showState = .idle) ∧
    ((armBody 86399999 86400000 0).length = 9 ∧ 86399999 = min (field (armBody 86399999 86400000 0) 0 4) 86399999 ∧
      some 86400000 = (if field (armBody 86399999 86400000 0) 4 4 = 0xFFFFFFFF then none
        else some (min (field (armBody 86399999 86400000 0) 4 4) 86400000))) ∧
    (∀ e, some 86400000 = some e → 86399999 < e) ∧ field (armBody 86399999 0xFFFFFFFF 0) 4 4 = 0xFFFFFFFF :=
  ⟨fun _ => ⟨asked_inExecution .., rfl, rfl⟩, by decide +kernel, by simp, by decide +kernel⟩

/-- 1.8: the show armed, with `n` blocks of music. -/
def armed (n : Nat) : State := playing (atShow .armed 5760000 1000000) (blocks 5760000 n)

/-- The state with start-pending set. -/
def startPending (s : State) (deadline : Nat) : State :=
  s.withSeq { s.seq with startDeadline := some (BitVec.ofNat 32 deadline) }

/-- 1.8: twenty blocks are too little music, so START is held pending until 1,005,000. -/
theorem test_start_pending :
    let t := went (exec .start (asked (armed 20) .showPort 0x11 []))
    t.seq.startDeadline = some 1005000 ∧ t.seq.showState = .armed ∧ t.plu.lead = 4800 := by decide +kernel

/-- 1.8: the fortieth block starts the show. -/
theorem test_fortieth_block :
    let t := went (exec .audioBlock (asked (startPending (armed 39) 1005000) .showPort 0x1A (audio 5769360 240)))
    t.seq.showState = .running ∧ t.seq.startDeadline = none ∧ noticed t .plantPort = [(.showState, 0, 5760000)] ∧
      replied t .showPort = some (.ok, bytes 4 5769600 ++ bytes 4 9600) := by decide +kernel

/-- 1.8: with thirty-nine blocks the start deadline expires. -/
theorem test_start_timeout :
    let t := went (exec .startDeadlineExpiry (startPending (armed 39) 1000000))
    t.seq.startDeadline = none ∧ t.seq.showState = .armed ∧ noticed t .showPort = [(.startTimeout, 0, 9360)] := by
  decide +kernel

theorem witness_StartRunsOrWaitsForMusic :
    let s := fun base => asked base .showPort 0x11 []
    (∀ base, (s base).InExecution .showPort 0x11 0x55 []) ∧
    ((s (armed 40)).seq.showState = .armed ∧ (s (armed 40)).seq.startDeadline = none ∧ (s (armed 40)).seq.silent = false ∧
      (s (armed 40)).tables.limits.startLevel = (s (armed 40)).plu.lead) ∧
    ((s (armed 39)).seq.showState = .armed ∧ (s (armed 39)).seq.startDeadline = none ∧ (s (armed 39)).seq.silent = false ∧
      (s (armed 39)).plu.lead < (s (armed 39)).tables.limits.startLevel) ∧
    ((s (startPending (armed 39) 0)).seq.showState = .armed ∧ (s (startPending (armed 39) 0)).seq.startDeadline ≠ none) ∧
    (s idle).seq.showState ≠ .armed := ⟨fun _ => asked_inExecution .., by decide +kernel⟩

/-- A show held paused, with `n` blocks of music. -/
def paused (n : Nat) : State :=
  let s := playing (atShow .hold 5760000 1000000) (blocks 5760000 n)
  s.withSeq { s.seq with holdCause := some .paused }

/-- R12: RESUME with less than ResumeLevel of music leaves the show starved. -/
theorem test_resume_starved :
    (went (exec (.resume .showPort) (asked (paused 39) .showPort 0x13 []))).seq.holdCause = some .starved ∧
    (went (exec (.resume .showPort) (asked (paused 40) .showPort 0x13 []))).seq.showState = .running := by decide +kernel

/-- R11: PAUSE of a running show holds it where it is. -/
theorem test_pause :
    let t := went (exec (.pause .consolePort) (asked (atShow .running 480 0) .consolePort 0x12 []))
    t.seq.holdCause = some .paused ∧ t.seq.showState = .hold ∧ t.plu.position = 480 := by decide +kernel

theorem witness_PauseHoldsAndResumeRuns :
    let s := fun base kind => asked base .consolePort kind []
    (∀ base kind, (s base kind).InExecution .consolePort kind 0x55 []) ∧
    (s (atShow .running 0 0) 0x12).seq.showState = .running ∧
    ((s (atShow .hold 0 0) 0x13).seq.showState = .hold ∧ (s (atShow .hold 0 0) 0x13).seq.holdCause ≠ some .paused) ∧
    ((s idle 0x12).seq.showState ≠ .running ∧ (s idle 0x12).seq.showState ≠ .hold) ∧
    ((s (paused 40) 0x13).seq.showState = .hold ∧ (s (paused 40) 0x13).seq.holdCause = some .paused ∧
      (s (paused 40) 0x13).seq.silent = false ∧
      (s (paused 40) 0x13).tables.limits.resumeLevel = (s (paused 40) 0x13).plu.lead) ∧
    ((s (paused 39) 0x13).seq.holdCause = some .paused ∧ (s (paused 39) 0x13).seq.silent = false ∧
      (s (paused 39) 0x13).plu.lead < (s (paused 39) 0x13).tables.limits.resumeLevel) :=
  ⟨fun _ _ => asked_inExecution .., by decide +kernel⟩

/-- 1.8: STOP in the fade brings the fade end to the position. -/
theorem test_stop_in_fade :
    let t := went (exec (.stop .showPort) (asked (atShow .fading 14450000 0) .showPort 0x14 []))
    t.seq.fadeEnd = some 14450000 ∧ t.seq.fadeCause = some .stopped := by decide +kernel

/-- 3.9: STOP retires the cues and installs 336 FADE cues. -/
theorem test_stop_pool :
    let t := went (exec (.stop .showPort)
      (asked (cued (atShow .running 0 0) 21 [cue 5 0 .step (.level 1) .pending] (.level 0)) .showPort 0x14 []))
    t.cst.free = 3760 ∧ t.seq.fadeEnd = some 144000 := by decide +kernel

theorem witness_StopFadesTheShow :
    let s := fun base => asked base .consolePort 0x14 []
    (∀ base, (s base).InExecution .consolePort 0x14 0x55 []) ∧ (s (armed 0)).seq.showState = .armed ∧
    (s (atShow .running 0 0)).seq.showState = .running ∧ (s (atShow .hold 0 0)).seq.showState = .hold ∧
    (s (atShow .fading 0 0)).seq.showState = .fading ∧ (s idle).seq.showState = .idle ∧
    (s State.reset).seq.showState = .unconfigured := ⟨fun _ => asked_inExecution .., by decide +kernel⟩

/-- What PLU has handed SEQ and SEQ has not yet taken. -/
def handed (s : State) (hold ended faded : Bool) : State :=
  s.withSeq { s.seq with holdAsked := hold, endReached := ended, fadeReached := faded }

/-- 1.8: the end of the show fades it out with cause END. -/
theorem test_end_of_show :
    let t := went (exec .endOfShow (handed (atShow .running 14400000 0) false true false))
    t.seq.showState = .fading ∧ t.seq.fadeEnd = some 14544000 ∧ t.seq.fadeCause = some .ended ∧
      (t.cst.lists[(0 : Channel)]).map Cue.start = [300000] := by decide +kernel

/-- 1.8: the fade end brings the show to IDLE. -/
theorem test_fade_end :
    let t := went (exec .fadeEnd (handed (atShow .fading 14450001 0) false false true))
    t.seq.showState = .idle ∧ t.seq.idleCause = .stopped ∧ t.seq.fadeEnd = none := by decide +kernel

/-- 1.8: starvation holds the show. -/
theorem test_starvation_hold :
    let t := went (exec .starvationHold (handed (atShow .running 6024000 0) true false false))
    t.seq.showState = .hold ∧ t.seq.holdCause = some .starved ∧ noticed t .showPort = [(.showState, 0, 6024000)] := by
  decide +kernel

theorem witness_SequencerEventsChangeTheShow :
    ((handed (atShow .running 0 0) false true false).seq.showState = .running ∧
      (handed (atShow .running 0 0) false true false).seq.endReached = true) ∧
    (handed (atShow .running 0 0) true false false).seq.holdAsked = true ∧
    ((handed (atShow .fading 0 0) false false true).seq.showState = .fading ∧
      (handed (atShow .fading 0 0) false false true).seq.fadeReached = true ∧
      (handed (atShow .fading 0 0) false false true).seq.fadeCause = some .stopped) ∧
    ((startPending (armed 0) 1000000).seq.showState = .armed ∧
      (startPending (armed 0) 1000000).seq.startDeadline = some 1000000 ∧
      ((startPending (armed 0) 1000000).clock.now - 1000000).toNat < 2147483648) ∧
    ((1000000 : Time) - (1000000 - 2147483647)).toNat < 2147483648 := by decide +kernel

/-- R3: each way in which the position changes. -/
theorem witness_ThePositionChangesInThreeWays :
    (went (exec .outputFrameEvent (atShow .running 5 0))).plu.position ≠ (atShow .running 5 0).plu.position ∧
    (went (exec .arm (asked idle .showPort 0x10 (armBody 1 2 0)))).plu.position ≠ idle.plu.position ∧
    (went (exec .restart (asked (atShow .hold 5 0) .plantPort 0x43 []))).plu.position ≠ (atShow .hold 5 0).plu.position := by
  decide +kernel

/-- R5: a change of the show state that an output frame event brings, and one of a request. -/
theorem witness_ShowStateChangesAreNoticed :
    (went (exec .outputFrameEvent (handed (atShow .running 5 0) true false false))).seq.showState ≠
      (handed (atShow .running 5 0) true false false).seq.showState ∧
    (went (exec (.pause .showPort) (asked (atShow .hold 5 0) .showPort 0x12 []))).seq.holdCause ≠
      (atShow .hold 5 0).seq.holdCause := by decide +kernel

theorem witness_EveryStepKeepsTheSequencerRecord :
    let s : State := { atShow .fading 5 0 with pending := [.outputFrameEvent] }
    (∃ t, step s = .next t) ∧ s.RecordLaw := ⟨⟨_, rfl⟩, by unfold State.RecordLaw; decide +kernel⟩

/-! ## Music playout -/

/-- 2.8: the show starved at 2,404,920. -/
def starved : State :=
  limited (atShow .hold 2404920 0) fun l => { l with starveGrace := 4800, resumeLevel := 960 }

/-- 2.8: a late block, and a straddling one. -/
theorem test_late_and_trimmed :
    replied (went (exec .audioBlock (asked starved .showPort 0x1A (audio 2403000 240)))) .showPort =
      some (.late, bytes 4 2404920 ++ bytes 4 0) ∧
    (let t := went (exec .audioBlock (asked starved .showPort 0x1A (audio 2404800 240)))
     t.plu.queue.map (fun b => (b.position, b.frames.length)) = [(2404920, 120)] ∧
      replied t .showPort = some (.trimmed, bytes 4 2405040 ++ bytes 4 120)) := by decide +kernel

/-- 2.8: the gapped block E brings the lead to ResumeLevel and runs the show again. -/
theorem test_resumes :
    let q := [⟨2404920, List.replicate 120 ⟨0, 0⟩⟩, block 2405040, block 2405400]
    let s := (playing starved q).withPlu { (playing starved q).plu with starvation := 4800 }
    let t := went (exec .audioBlock (asked s .showPort 0x1A (audio 2405640 240)))
    t.seq.showState = .running ∧ t.plu.starvation = 0 ∧
      (went (exec .audioBlock (asked starved .showPort 0x1A (audio 2404681 240)))).plu.starvation = 0 := by decide +kernel

/-- The edges of the judgement: an end at and one after the expected next position, a full queue, the starts of a trim. -/
theorem witness_AudioBlocksAreJudgedAgainstTheExpectedPosition :
    let s := fun base position n => asked base .showPort 0x1A (audio position n)
    (∀ base position n, (s base position n).InExecution .showPort 0x1A 0x55 (audio position n)) ∧
    (∀ n ∈ [1, 240], 1 ≤ n ∧ n ≤ 240 ∧ (List.replicate (6 * n) 0#8).length = 6 * n ∧ 4294967296 - n + n ≤ 4294967296) ∧
    (s (stopped idle) 0 1).estop = true ∧
    ((s idle 0 1).estop = false ∧ (s idle 0 1).seq.showState.takesBlocks = false) ∧
    ((s starved 2404680 240).estop = false ∧ (s starved 2404680 240).seq.showState.takesBlocks = true ∧
      2404680 + 240 ≤ (s starved 2404680 240).plu.expectedNext) ∧
    ((s starved 2404681 240).plu.expectedNext < 2404681 + 240 ∧ (s starved 2404681 240).plu.queue.length < 64) ∧
    (let full := s (playing starved (blocks 2404920 64)) 2420280 1
     64 ≤ full.plu.queue.length ∧ full.plu.expectedNext < 2420280 + 1 ∧ full.seq.showState.takesBlocks = true) ∧
    (4294967295 + 1 ≤ 4294967296 ∧ ¬ 4294967295 + 1 < 4294967296 ∧
      4294967295 + 1 - (s starved 4294967295 1).plu.position < 4294967296) ∧
    (let resumed := s starved 2405640 240
     resumed.seq.showState = .hold ∧ resumed.seq.holdCause = some .starved ∧
       resumed.tables.limits.resumeLevel ≤ 2405640 + 240 - resumed.plu.position ∧
       ¬ resumed.tables.limits.resumeLevel ≤ 2404681 + 240 - resumed.plu.position) := by
  refine ⟨fun _ _ _ => asked_inExecution .., ?_⟩
  decide +kernel

/-- R27, R35: a flush in RUNNING makes the low-mark test. -/
theorem test_flush :
    let t := went (exec .audioFlush (asked (playing (atShow .running 0 0) (blocks 0 2)) .showPort 0x1B []))
    t.plu.queue = [] ∧ noticed t .showPort = [(.audioLow, 0, 0)] := by decide +kernel

/-- R29: the volume is clamped to 1000. -/
theorem test_volume :
    (went (exec (.volume .consolePort) (asked idle .consolePort 0x1C (bytes 2 600)))).plu.volume = 600 ∧
    (went (exec (.volume .consolePort) (asked idle .consolePort 0x1C (bytes 2 1001)))).plu.volume = 1000 := by decide +kernel

theorem witness_FlushEmptiesTheQueueAndVolumeIsClamped :
    (asked idle .showPort 0x1B []).InExecution .showPort 0x1B 0x55 [] ∧
    (∀ body, (asked idle .consolePort 0x1C body).InExecution .consolePort 0x1C 0x55 body) ∧
    [0#8].length ≠ 2 ∧ bytes 2 1001 = [0x03, 0xE9] :=
  ⟨asked_inExecution .., fun _ => asked_inExecution .., by decide +kernel⟩

/-- 2.8: the frame at 2,400,119 is B1's last, and B1 is retired. -/
theorem test_block_retired :
    let t := went (exec .outputFrameEvent (playing (atShow .running 2400119 0) [block 2399880]))
    t.plu.position = 2400120 ∧ t.plu.queue = [] := by decide +kernel

/-- 2.8: the 4,800th empty frame asks for the hold. R30: a sample is scaled toward zero. -/
theorem test_output_frame :
    (let s := (limited (atShow .running 2404919 0) fun l => { l with starveGrace := 4800 })
     let t := went (exec .outputFrameEvent (s.withPlu { s.plu with starvation := 4799 }))
     t.plu.position = 2404920 ∧ t.seq.holdAsked = true) ∧
    (let s := playing (atShow .running 7 0) [⟨7, [⟨-3, 1001⟩]⟩]
     (went (exec .outputFrameEvent (s.withPlu { s.plu with volume := 500 }))).plu.output = ⟨-1, 500⟩) := by decide +kernel

/-- R16: the frame that advances to the end position, and the one that reaches 4,147,200,000, hand SEQ the end of the show. -/
theorem test_end_reached :
    let s := atShow .running 479 0
    (went (exec .outputFrameEvent (s.withSeq { s.seq with endPosition := some 480 }))).seq.endReached = true ∧
    (went (exec .outputFrameEvent (s.withSeq { s.seq with endPosition := some 481 }))).seq.endReached = false ∧
    (went (exec .outputFrameEvent (atShow .running 4147199999 0))).seq.endReached = true := by decide +kernel

/-- Nothing of SEQ's outstanding: no show, a frame of a block, a gap before one, no block, a fade; the lead below and at the low
mark; and each of the three things that SEQ takes first. -/
theorem witness_OutputFramesAdvanceTheShowClock :
    (idle.seq.showState ≠ .running ∧ idle.seq.showState ≠ .fading) ∧
    (let s := playing (atShow .running 7 0) [⟨7, [⟨-3, 1001⟩]⟩];
     s.seq.endReached = false ∧ s.seq.holdAsked = false ∧ s.seq.showState = .running ∧ s.estop = false ∧
      s.plu.queue = [⟨7, [⟨-3, 1001⟩]⟩] ∧ [(⟨-3, 1001⟩ : Frame)][7 - 7]? = some ⟨-3, 1001⟩) ∧
    (let s := playing (atShow .running 7 0) [⟨8, [⟨-3, 1001⟩]⟩];
     s.seq.showState = .running ∧ s.seq.silent = false ∧ s.plu.lowMarkArmed = true ∧ s.plu.position < 8 ∧
      8 + 1 - (7 + 1) < s.tables.limits.lowMark) ∧
    ((atShow .fading 7 0).seq.fadeReached = false ∧ (atShow .fading 7 0).seq.showState = .fading ∧
      (atShow .fading 7 0).plu.queue = []) ∧
    (let s := handed (atShow .running 7 0) true false false;
     s.seq.showState = .running ∧ s.seq.endReached = false ∧ s.seq.holdAsked = true) ∧
    (let s := handed (atShow .running 7 0) true true false; s.seq.showState = .running ∧ s.seq.endReached = true) ∧
    (let s := handed (atShow .fading 7 0) false false true; s.seq.showState = .fading ∧ s.seq.fadeReached = true) ∧
    (∃ u v w, exec .fadeEnd (handed (atShow .fading 7 0) false false true) = .next u ∧
      exec .endOfShow (handed (atShow .running 7 0) true true false) = .next v ∧
      exec .starvationHold (handed (atShow .running 7 0) true false false) = .next w) := by
  refine ⟨?_, ?_, ?_, ?_, ?_, ?_, ?_, ⟨_, _, _, rfl, rfl, rfl⟩⟩ <;> decide +kernel

theorem witness_EveryStepKeepsTheAudioQueueLaw :
    let s : State := { playing (atShow .running 7 0) (blocks 0 64) with pending := [.outputFrameEvent] }
    (∃ t, step s = .next t) ∧ s.plu.AudioLaw := ⟨⟨_, rfl⟩, by unfold Plu.AudioLaw; decide +kernel⟩

theorem witness_EveryStepKeepsTheQueueEmptyWithoutAShow :
    let s : State := { atShow .fading 5 0 with pending := [.outputFrameEvent] }
    (∃ t, step s = .next t) ∧ s.RecordLaw ∧ s.QuietLaw :=
  ⟨⟨_, rfl⟩, by unfold State.RecordLaw; decide +kernel, by unfold State.QuietLaw; decide +kernel⟩

/-! ## Cue store -/

/-- One entry of CUE_LOAD (R41). -/
def entry (c start duration curve : Nat) (value : List Byte) : List Byte :=
  bytes 2 c ++ bytes 4 start ++ bytes 4 duration ++ bytes 1 curve ++ value

/-- 3.7: three entries are stored. -/
theorem test_cueLoad :
    let t := went (exec .cueLoad (asked (atShow .running 432000 0) .showPort 0x18
      (entry 21 10000 2000 1 (levelBytes 800) ++ entry 21 13000 3000 1 (levelBytes 100) ++
        entry 154 10000 1000 2 [255, 128, 0, 40, 200])))
    replied t .showPort = some (.ok, [3, 0, 0, 255, 0] ++ bytes 2 4093) ∧
      (t.cst.lists[(21 : Channel)]).map (fun k => (k.start, k.target)) = [(10000, .level 800), (13000, .level 100)] ∧
      (t.cst.lists[(154 : Channel)]).map Cue.target = [.colour ⟨255, 128, 0, 40, 200⟩] := by decide +kernel

/-- 3.9, request 65: an entry without room, an update, and a channel that does not exist. R42: a channel, a curve code and a start
that are each one too great, and an entry with all three at their greatest. -/
theorem test_cueLoad_partial :
    let s := cued idle 21 [cue 5000 0 .step (.level 1) .pending] (.level 0)
    let t := went (exec .cueLoad (asked (s.withCst { s.cst with free := 0, poolLowArmed := false }) .showPort 0x18
      (entry 21 6000 0 0 (levelBytes 1) ++ entry 21 5000 0 0 (levelBytes 7) ++ entry 400 0 0 0 (levelBytes 1))))
    let u := went (exec .cueLoad (asked idle .showPort 0x18 (entry 336 0 0 0 (levelBytes 1) ++ entry 335 0 0 3 (levelBytes 1) ++
      entry 335 86400000 0 0 (levelBytes 1) ++ entry 335 86399999 600001 2 [1, 2, 3, 4, 5])))
    replied t .showPort = some (.partialResult, [0, 1, 2, 0, 0x0B, 0, 0]) ∧
    replied u .showPort = some (.partialResult, [1, 0, 3, 0, 0x07] ++ bytes 2 4095) ∧
      u.cst.lists[(335 : Channel)] = [cue 86399999 600000 .ease (.colour ⟨1, 2, 3, 4, 5⟩) .pending] := by decide +kernel

/-- A cue list of the witnesses: an ACTIVE cue at 10,000 and a PENDING one at 13,000. -/
def twoCues : List Cue :=
  [cue 10000 2000 .linear (.level 800) (.active (.level 200) none), cue 13000 3000 .linear (.level 100) .pending]

/-- R43: an update of either cue, an entry before the ACTIVE cue, one after it with and without room. -/
theorem witness_CueLoadStoresOneEntry :
    let s := fun start => asked (cued idle 21 twoCues (.level 0)) .showPort 0x18 (entry 21 start 600001 1 (levelBytes 1))
    (∀ start, (s start).InExecution .showPort 0x18 0x55 (entry 21 start 600001 1 (levelBytes 1)) ∧ (s start).estop = false ∧
      (s start).seq.showState ≠ .unconfigured ∧ (s start).seq.showState ≠ .fading) ∧
    (levelBytes 1).length = 5 ∧ CueListLaw (s 0).cst.lists[(21 : Channel)] ∧
    (s 0).cst.lists[(21 : Channel)] = [] ++ cue 10000 2000 .linear (.level 800) (.active (.level 200) none) ::
      [cue 13000 3000 .linear (.level 100) .pending] ∧
    (∀ k ∈ (s 0).cst.lists[(21 : Channel)], k.start ≠ 9999 ∧ k.start ≠ 10001 ∧ k.start ≠ 86399999) ∧
    (∀ k ∈ (s 0).cst.lists[(21 : Channel)], k.isActive = true → 9999 < k.start ∧ k.start < 10001) ∧
    0 < (s 0).cst.free := by
  refine ⟨fun _ => ⟨asked_inExecution .., rfl, (by decide : ShowState.idle ≠ .unconfigured),
    (by decide : ShowState.idle ≠ .fading)⟩, by decide +kernel, ?_,
    by decide +kernel, by decide +kernel, by decide +kernel, by decide +kernel⟩
  unfold CueListLaw
  decide +kernel

/-- R46: a load that leaves fewer records than the low mark raises CUES_LOW once; the flag is set again 64 above it. -/
theorem test_cues_low :
    let s := fun free armed => (idle.withCst { idle.cst with free := free, poolLowArmed := armed })
    let t := fun free armed => went (exec .cueLoad (asked (s free armed) .showPort 0x18 (entry 21 6000 0 0 (levelBytes 1))))
    noticed (t idle.tables.limits.lowPool true) .showPort = [(.cuesLow, 0, idle.tables.limits.lowPool - 1)] ∧
    (t idle.tables.limits.lowPool true).cst.poolLowArmed = false ∧ noticed (t (idle.tables.limits.lowPool + 1) true) .showPort = [] ∧
    (t (idle.tables.limits.lowPool + 64) false).cst.poolLowArmed = false ∧
    (t (idle.tables.limits.lowPool + 65) false).cst.poolLowArmed = true := by decide +kernel

/-- A load of 64 entries, and for every clause about one entry values at its edges. -/
theorem witness_CueLoadCountsAddUp :
    let s := asked idle .showPort 0x18 (List.replicate 1024 0)
    s.InExecution .showPort 0x18 0x55 (List.replicate 1024 0) ∧ (List.replicate 1024 0#8).length ≠ 0 ∧
    (List.replicate 1024 0#8).length % 16 = 0 ∧ (List.replicate 1024 0#8).length ≤ 1024 ∧
    s.estop = false ∧ s.seq.showState ≠ .unconfigured ∧ s.seq.showState ≠ .fading ∧
    (335 < field (entry 336 0 0 0 []) 0 2 ∧ 2 < field (entry 0 0 0 3 []) 10 1 ∧ 86399999 < field (entry 0 86400000 0 0 []) 2 4) ∧
    (field (entry 335 86399999 0 2 []) 0 2 = (335 : Channel).val ∧ field (entry 335 86399999 0 2 []) 10 1 = Curve.ease.code ∧
      field (entry 335 86399999 0 2 []) 2 4 ≤ 86399999) ∧
    (CueListLaw twoCues ∧ (∀ k ∈ twoCues, k.start ≠ 9999 ∧ k.start ≠ 10001) ∧
      ∀ k ∈ twoCues, k.isActive = true → 9999 < k.start ∧ k.start < 10001) := by
  refine ⟨asked_inExecution .., ?_⟩
  unfold CueListLaw
  decide +kernel

/-- R47: PENDING cues from 10,000 on are retired, the ACTIVE cue stays. -/
theorem test_cueClear :
    let t := went (exec .cueClear (asked (cued idle 21 twoCues (.level 0)) .showPort 0x19
      (bytes 2 21 ++ bytes 2 21 ++ bytes 4 10000)))
    replied t .showPort = some (.ok, bytes 2 1 ++ bytes 2 4095) ∧ (t.cst.lists[(21 : Channel)]).map Cue.start = [10000] := by
  decide +kernel

theorem witness_CueClearRetiresPendingCues :
    let body := bytes 2 335 ++ bytes 2 335 ++ bytes 4 0
    let s := asked idle .showPort 0x19 body
    s.InExecution .showPort 0x19 0x55 body ∧ body.length = 8 ∧ 335 = field body 0 2 ∧ 335 = field body 2 2 ∧
    0 = field body 4 4 ∧ s.estop = false ∧ s.seq.showState ≠ .unconfigured ∧ s.seq.showState ≠ .fading :=
  ⟨asked_inExecution .., by decide +kernel⟩

/-- The show value of a channel after its evaluation. -/
def evaluated (s : State) (c : Channel) : Value := (went (exec (.channelEvaluation c) (asking s c .evaluate))).cst.shown[c]

/-- 3.7: J5 rising at 10,000 and 11,333, and falling at 14,000. R50: a STEP cue gives its target at its start and half way. -/
theorem test_linear :
    evaluated (cued (atShow .running 480000 0) 21 [cue 10000 2000 .linear (.level 800) .pending] (.level 200)) 21 =
      .level 200 ∧
    evaluated (cued (atShow .running (11333 * 48) 0) 21 twoCues (.level 200)) 21 = .level 599 ∧
    evaluated (cued (atShow .running (14000 * 48) 0) 21
      [cue 13000 3000 .linear (.level 100) (.active (.level 800) none)] (.level 800)) 21 = .level 567 ∧
    evaluated (cued (atShow .running 480000 0) 21 [cue 10000 2000 .step (.level 800) .pending] (.level 200)) 21 = .level 800 ∧
    evaluated (cued (atShow .running (11000 * 48) 0) 21 [cue 10000 2000 .step (.level 800) (.active (.level 200) none)]
      (.level 200)) 21 = .level 800 := by decide +kernel

/-- 3.7: L10 easing at 10,250. -/
theorem test_ease :
    evaluated (cued (atShow .running (10250 * 48) 0) 154 [cue 10000 1000 .ease (.colour ⟨255, 128, 0, 40, 200⟩)
      (.active (.colour ⟨0, 0, 0, 0, 0⟩) none)] (.colour ⟨0, 0, 0, 0, 0⟩)) 154 = .colour ⟨39, 19, 0, 6, 31⟩ := by decide +kernel

/-- 3.8: the list of J7, with an ACTIVE cue and three PENDING ones. -/
def skipList : List Cue := [cue 40000 0 .step (.level 1) (.active (.level 0) none), cue 50010 0 .step (.level 2) .pending,
  cue 50050 0 .step (.level 3) .pending, cue 50080 0 .step (.level 4) .pending]

/-- 3.8: an evaluation at 50,100 skips two cues. -/
theorem test_skipped :
    let t := went (exec (.channelEvaluation 23)
      (asking (cued (atShow .running (50100 * 48) 0) 23 skipList (.level 1)) 23 .evaluate))
    t.cst.skipped = 2 ∧ (t.cst.lists[(23 : Channel)]).map Cue.start = [50080] ∧ t.cst.free = 4095 := by decide +kernel

/-- The state, gathering and list of an evaluation at the start of a PENDING cue. -/
theorem witness_EvaluationActivatesTheLatestDueCue :
    let s := asking (cued (atShow .running (50080 * 48) 0) 23 skipList (.level 1)) 23 .evaluate
    s.gathering 23 = some ⟨16, List.replicate 7 (.opening 0), .evaluate⟩ ∧ 50080 = s.plu.position / 48 ∧
    s.cst.lists[(23 : Channel)] = skipList.take 3 ++ cue 50080 0 .step (.level 4) .pending :: [] ∧
    (∀ x ∈ skipList.take 3, x.start ≤ 50080) := by decide +kernel

/-- A list without an ACTIVE cue; a LOADED one ahead of, at and past its start; an installed one. -/
theorem witness_EvaluationFollowsTheActiveCue :
    let s := asking (cued (atShow .running (50000 * 48) 0) 23 (skipList.take 2) (.level 1)) 23 .evaluate
    s.gathering 23 = some ⟨16, List.replicate 7 (.opening 0), .evaluate⟩ ∧ 50000 = s.plu.position / 48 ∧
    (∀ x ∈ (skipList.take 2).tail, 50000 < x.start ∧ x.isPending = true) ∧
    s.cst.lists[(23 : Channel)] = cue 40000 0 .step (.level 1) (.active (.level 0) none) :: (skipList.take 2).tail ∧
    (cued idle 23 (skipList.drop 1) (.level 1)).cst.lists[(23 : Channel)] = skipList.drop 1 ∧
    idle.plu.position / 48 < 40000 ∧
    (⟨0, 0, .step, .level 0, .rest, .active (.level 1) (some 5)⟩ : Cue).origin ≠ .loaded := by decide +kernel

/-- R51's elapsed times and a duration that meet the bounds. -/
theorem witness_RampsFollowTheirCurvesBetweenTheirEnds : 0 < 1000 ∧ 1000 ≤ 1000 ∧ 0 ≤ 0 := by decide

theorem witness_EveryStepKeepsTheCuePoolLaw :
    let s : State := { cued idle 23 skipList (.level 1) with pending := [.coldReset] }
    (∃ t, step s = .next t) ∧ s.PoolLaw := ⟨⟨_, rfl⟩, by unfold State.PoolLaw; decide +kernel⟩

theorem witness_EveryStepKeepsTheCueListLaw :
    let s : State := { cued idle 23 skipList (.level 1) with pending := [.coldReset] }
    (∃ t, step s = .next t) ∧ s.CueLaw := ⟨⟨_, rfl⟩, by unfold State.CueLaw CueListLaw; decide +kernel⟩

/-! ## Channel arbiter -/

/-- The state with one ownership record. -/
def owned (s : State) (c : Channel) (o : Ownership) : State :=
  (s.withRecord c o).withClaimCount (if o.claim.isSome then 1 else 0)

/-- 4.8: J40's claim after the SET at 500,400. -/
def claim40 : Claim := ⟨.level 620, .level 100, 500400, 2000, 502400⟩

/-- 4.8: CLAIM at 500,000 of J40 at 620. -/
theorem test_claim :
    let t := went (exec .claim (asked (cued (atShow .running 0 500000) 56 [] (.level 620)) .consolePort 0x20 (bytes 2 56)))
    t.cha.records[(56 : Channel)] = ⟨some ⟨.level 620, .level 620, 500000, 0, 502000⟩, none, none⟩ ∧
      replied t .consolePort = some (.ok, [1, 0, 0, 255, 0, 1]) := by decide +kernel

/-- The state with a claim count. -/
def counted (s : State) (n : Nat) : State := s.withClaimCount n

/-- A lockout, a claim with its ramp running or complete, room for one claim and for none. -/
theorem witness_ClaimTakesOrRefreshesAChannel :
    let s := fun base => asked base .consolePort 0x20 ([56, 400, 56].flatMap (bytes 2))
    (∀ base, (s base).InExecution .consolePort 0x20 0x55 ([56, 400, 56].flatMap (bytes 2))) ∧ (s idle).estop = false ∧
    (1 ≤ [56, 400, 56].length ∧ [56, 400, 56].length ≤ 64 ∧ ∀ n ∈ [56, 400, 56], n < 65536) ∧
    (s (owned idle 56 ⟨none, some ⟨.level 0, false, 7⟩, none⟩)).cha.records[(56 : Channel)].lockout ≠ none ∧
    (∀ now ∈ [502399, 502400],
      (s (owned (atShow .running 0 now) 56 ⟨some claim40, none, none⟩)).cha.records[(56 : Channel)] = ⟨some claim40, none, none⟩) ∧
    ¬ claim40.ramp ≤ ((502399 : Time) - claim40.setTime).toNat ∧ claim40.ramp ≤ ((502400 : Time) - claim40.setTime).toNat ∧
    ((s (counted idle 63)).cha.claimCount < 64 ∧ 64 ≤ (s (counted idle 64)).cha.claimCount) ∧
    (∀ n ∈ [63, 64], (s (counted idle n)).cha.records[(56 : Channel)] = ⟨none, none, none⟩) := by
  refine ⟨fun _ => asked_inExecution .., ?_⟩
  decide +kernel

/-- The value that CHA selects for a channel whose show value is handed over. -/
def selected (s : State) (c : Channel) (shown : Value) : Option Value :=
  ((went (exec (.outputSelection c) (asking s c (.select shown)))).handedOn c).map (·.2)

/-- 4.8: the manual ramp at 501,133 and the rejoin at 503,333. -/
theorem test_selection :
    selected (owned (atShow .running 0 501133) 56 ⟨some claim40, none, none⟩) 56 (.level 5) = some (.level 430) ∧
    selected (owned (atShow .running 0 503333) 56 ⟨none, none, some ⟨.level 100, 502400, 1000⟩⟩) 56 (.level 760) =
      some (.level 715) := by decide +kernel

/-- 4.9: L30 rejoining at 800,125. -/
theorem test_fixture_rejoin :
    selected (owned (atShow .running 0 800125) 174 ⟨none, none, some ⟨.colour ⟨0, 0, 0, 255, 102⟩, 800000, 500⟩⟩) 174
      (.colour ⟨200, 40, 0, 0, 180⟩) = some (.colour ⟨50, 10, 0, 192, 121⟩) := by decide +kernel

/-- 4.8: SET at 500,400 and the expiry of the lease at 502,400. -/
theorem test_set_and_lapse :
    (went (exec .set (asked (owned (atShow .running 0 500400) 56
      ⟨some ⟨.level 620, .level 620, 500000, 0, 502000⟩, none, none⟩) .consolePort 0x21
        (bytes 2 56 ++ levelBytes 100 ++ bytes 4 2000)))).cha.records[(56 : Channel)].claim = some claim40 ∧
    (let t := went (exec (.leaseExpiry 56) (owned (atShow .running 0 502400) 56 ⟨some claim40, none, none⟩))
     t.cha.records[(56 : Channel)] = ⟨none, none, some ⟨.level 100, 502400, 1000⟩⟩ ∧ t.cha.claimCount = 0 ∧
      noticed t .consolePort = [(.claimExpired, 56, 0)]) := by decide +kernel

/-- R63–R65: a channel twice and one that does not exist: claimed, refused, refreshed. -/
theorem test_claim_list :
    replied (went (exec .claim (asked idle .consolePort 0x20 ([56, 400, 56].flatMap (bytes 2))))) .consolePort =
      some (.partialResult, [1, 1, 1, 1, 0x07, 1]) := by decide +kernel

/-- R67: RELEASE with an empty body goes through every channel. -/
theorem test_release_all :
    replied (went (exec .release (asked (owned idle 56 ⟨some claim40, none, none⟩) .consolePort 0x22 []))) .consolePort =
      some (.ok, [1, 0x01, 0x4F, 0, 255, 0]) := by decide +kernel

/-- R67: RELEASE of the claimed channel and of one without a claim. -/
theorem test_release :
    replied (went (exec .release (asked (owned idle 56 ⟨some claim40, none, none⟩) .consolePort 0x22
      (bytes 2 56 ++ bytes 2 57)))) .consolePort = some (.ok, [1, 0, 1, 0, 255, 0]) := by decide +kernel

theorem witness_ClaimsAreSetReleasedAndLapse :
    let s := fun kind body => asked (owned (atShow .running 0 502400) 56 ⟨some claim40, none, none⟩) .consolePort kind body
    (∀ kind body, (s kind body).InExecution .consolePort kind 0x55 body) ∧
    (s 0x21 []).cha.records[(56 : Channel)] = ⟨some claim40, none, none⟩ ∧
    ((levelBytes 1).length = 5 ∧ 60001 < 4294967296 ∧ (s 0x21 []).estop = false) ∧
    (let ns := [56, 57, 65535]
     1 ≤ ns.length ∧ ns.length ≤ 64 ∧ (∀ n ∈ ns, n < 65536) ∧ (s 0x22 []).cha.records[(57 : Channel)].claim = none) ∧
    ((s 0x21 []).clock.now - claim40.lease).toNat < 2147483648 := by
  refine ⟨fun _ _ => asked_inExecution .., ?_⟩
  decide +kernel

/-- 4.8: a LOCKOUT removes the claim; R71: one on a pump takes its drive down. -/
theorem test_lockout :
    (let t := went (exec .lockout (asked (owned idle 56 ⟨some claim40, none, none⟩) .plantPort 0x28
      (levelBytes 0 ++ [0, 7] ++ bytes 2 56)))
     t.cha.records[(56 : Channel)] = ⟨none, some ⟨.level 0, false, 7⟩, none⟩ ∧
      noticed t .consolePort = [(.claimLost, 56, 7)] ∧ replied t .plantPort = some (.ok, [1, 0, 0, 255, 0])) ∧
    (went (exec .lockout (asked (driven idle 11 (drive .on) 1000 630) .plantPort 0x28
      (levelBytes 0 ++ [1, 7] ++ bytes 2 11)))).dlc[(11 : Pump)].pending = some ⟨.powerOff, 1000000, .on, false⟩ := by decide +kernel

/-- 4.8: UNLOCK gives a rejoin from the lock value. -/
theorem test_unlock :
    (went (exec .unlock (asked (owned (atShow .running 0 510000) 56 ⟨none, some ⟨.level 0, false, 7⟩, none⟩) .plantPort 0x29
      (bytes 2 56)))).cha.records[(56 : Channel)] = ⟨none, none, some ⟨.level 0, 510000, 1000⟩⟩ := by decide +kernel

theorem witness_LockoutHoldsAndUnlockRejoins :
    let s := fun base kind body => asked base .plantPort kind body
    (∀ base kind body, (s base kind body).InExecution .plantPort kind 0x55 body) ∧ (levelBytes 1000).length = 5 ∧
    (let ns := List.replicate 64 65535
     1 ≤ ns.length ∧ ns.length ≤ 64 ∧ ∀ n ∈ ns, n < 65536) ∧
    (s idle 0x29 (bytes 2 335)).cha.records[(335 : Channel)].lockout = none ∧
    (s (owned idle 0 ⟨none, some ⟨.level 0, true, 255⟩, none⟩) 0x29 (bytes 2 0)).cha.records[(0 : Channel)].lockout =
      some ⟨.level 0, true, 255⟩ ∧
    (s (owned idle 56 ⟨some claim40, none, none⟩) 0x28 []).cha.records[(56 : Channel)].claim ≠ none ∧
    (let pump := s (driven idle 15 (drive .on) 1000 1) 0x28 []
     pump.dlc[(15 : Pump)].present = true ∧ pump.dlc[(15 : Pump)].power = .on ∧
      pumpChannel 15 = 15 ∧ pump.cha.records[(15 : Channel)].claim = none) := by
  refine ⟨fun _ _ _ => asked_inExecution .., ?_⟩
  decide +kernel

/-- Each owner, and a rejoin one millisecond before its end and at it. -/
theorem witness_SelectionFollowsTheEffectiveOwner :
    (asking idle 335 (.select (.level 0))).gathering 335 =
      some ⟨27, List.replicate 23 (.lamp ⟨0, 0, 0, 0⟩), .select (.level 0)⟩ ∧
    (owned idle 0 ⟨none, some ⟨.level 0, true, 255⟩, none⟩).cha.records[(0 : Channel)].lockout ≠ none ∧
    (owned idle 56 ⟨some claim40, none, none⟩).cha.records[(56 : Channel)] = ⟨some claim40, none, none⟩ ∧
    (owned idle 56 ⟨none, none, some ⟨.level 1, 999000, 1000⟩⟩).cha.records[(56 : Channel)] =
      ⟨none, none, some ⟨.level 1, 999000, 1000⟩⟩ ∧
    1000 ≤ (idle.clock.now - 999000).toNat ∧ (idle.clock.now - 999001).toNat < 1000 := by decide +kernel

theorem witness_EveryStepKeepsTheOwnershipLaw :
    let s : State := { owned idle 56 ⟨some claim40, none, none⟩ with pending := [.leaseExpiry 56] }
    (∃ t, step s = .next t) ∧ s.cha.OwnershipLaw := ⟨⟨_, rfl⟩, by unfold Cha.OwnershipLaw; decide +kernel⟩

/-! ## Frame scheduler -/

/-- The state with the slot pointer and the management pointer set. -/
def pointed (s : State) (slot : Slot) (management : Pump) : State :=
  s.withFsc { s.fsc with pointer := slot, management := management }

/-- A PRESENT drive in OFF with a pending POWER_ON. -/
def poweringOn : DriveRecord := { drive .off with power := .poweringUp, pending := some ⟨.powerOn, 200000, .off, false⟩ }

/-- Drive line SENDING a frame for a pump's slot; the frame's own check plays no part in what follows. -/
def sending (s : State) (i : Pump) (f : DriveFrame) : State :=
  s.withLine .drive (.sending (.group ⟨i.val, by omega⟩) (.drive i f 0))

/-- A reply window with one frame, from drive `i`, of the kind `k` and with the check that belongs to it. -/
def replies (i : Pump) (k : ReplyKind) : List ReplyFrame := [⟨i.val + 1, k, replyCheck (i.val + 1) k⟩]

/-- The completion of an exchange with such a reply: the codes under its check are free, so it is found good by its lemma and not
by evaluation. -/
theorem went_replies (s : State) (i : Pump) (f : DriveFrame) (k : ReplyKind) (h : k ≠ .other) :
    went (exec (.exchangeCompletion (replies i k)) (sending s i f)) =
      ((sending s i f).completeExchange i f (some k)).withLine .drive .free := by
  rw [← goodReply_eq_some i k [] h]
  rfl

/-- The valve line SENDING a frame of VB0. -/
def valveSending (s : State) : State := s.withLine .valve (.sending (.group 16) (.valve 16 [] 0))

/-- 5.9: slot 25 finds the drive line SENDING and is skipped; slot 27 builds P5's POWER(on) and marks the command. -/
theorem test_null_slots :
    let s := driven (atShow .running 0 0) 5 poweringOn 1000 0
    (let t := went (exec .slotExpiry (pointed (sending s 12 (.speed 0)) 25 4))
     t.fsc.management = 4 ∧ t.fsc.pointer = 26 ∧ t.fsc.drive = (sending s 12 (.speed 0)).fsc.drive) ∧
    (let t := went (exec .slotExpiry (pointed s 27 4))
     t.fsc.management = 5 ∧ t.fsc.drive = .assemblingNull 5 (.power true) ∧
       t.dlc[(5 : Pump)].pending = some ⟨.powerOn, 200000, .off, true⟩) := by decide +kernel

/-- R134: a drive in FAULT with no command is not chosen in a NULL slot; with a CLEAR pending, its CLEAR is built. -/
theorem test_fault_in_null_slot :
    let s := idle.withDlc (uniform 16 (drive .fault))
    (went (exec .slotExpiry (pointed s 27 3))).fsc.drive = .free ∧
    (went (exec .slotExpiry (pointed (s.withDrive 4 { drive .fault with pending := some ⟨.clear, 1, .fault, false⟩ }) 27 3))).fsc.drive =
      .assemblingNull 4 .clear := by decide +kernel

/-- 5.10: an entry on a busy line is an overrun. -/
theorem test_overrun :
    let t := went (exec .slotExpiry (pointed (valveSending idle) 5 0))
    t.fsc.overruns[(16 : Group)] = 1 ∧ noticed t .plantPort = [(.slotOverrun, 16, 1)] := by decide +kernel

/-- A group on a free and on a busy line, the top of the overrun count, and the NULL choices: a command, a probe, neither. -/
theorem witness_SlotExpiryServesTheEntryAtThePointer :
    (idle.clock.released = true ∧ idle.clock.expiries < 2 ∧ 2 ≤ (idle.withClock ⟨0, 2, true⟩).clock.expiries ∧
    (pointed idle 5 0).tables.slots[(pointed idle 5 0).fsc.pointer] = some 16 ∧
    (idle.fsc.line (lineOf 16) = .free ∧ (valveSending idle).fsc.line (lineOf 16) ≠ .free) ∧
    (pointed idle 25 0).tables.slots[(pointed idle 25 0).fsc.pointer] = none ∧
    ((sending idle 12 (.speed 0)).fsc.drive ≠ .free ∧ idle.fsc.drive = .free) ∧
    (let s := driven idle 5 poweringOn 1000 0;
     s.dlc[(5 : Pump)].pending = some ⟨.powerOn, 200000, .off, false⟩ ∧ ∀ d : Pump, d ≠ 5 → s.dlc[d].pending = none) ∧
    ((5 : Pump).val = ((4 : Pump).val + 1 + 0) % 16 ∧ (4 : Pump).val = ((4 : Pump).val + 1 + 15) % 16) ∧
    (∀ d : Pump, idle.dlc[d].pending = none ∧ idle.dlc[d].present = false) ∧
    (∀ d : Pump, (idle.withDlc (uniform 16 (drive .off))).dlc[d].present = true)) ∧
    ∃ aged : Pump → DriveRecord, ∀ i, aged i = if idle.clock.expiries < 2 then idle.dlc[i] else
      { idle.dlc[i] with age := min (idle.dlc[i].age + 1) 4294967295 } :=
  ⟨by decide +kernel, _, fun _ => rfl⟩

/-- VB0's frame complete, every answer the same. -/
def bankComplete (s : State) (n : Nat) : State :=
  s.withLine .valve (.assembling ⟨16, (List.replicate 32 n).map .opening, .evaluate⟩)

/-- The state with every valve output table entry the same. -/
def opened (s : State) (n : Nat) : State := s.withOut { s.out with valves := uniform 128 n }

/-- 8.5: a frame answered 760 before the entry is lowered to the entries of 700 at its hand-over. -/
theorem test_handover :
    (went (exec (.frameHandover .valve) (bankComplete (stopped (opened idle 700)) 760))).out.valves[(0 : Jet)] = 700 ∧
    (went (exec (.frameHandover .valve) (bankComplete (opened idle 700) 760))).out.valves[(0 : Jet)] = 760 := by
  decide +kernel

/-- The entry and the frame that the drive line is SENDING. -/
def driveSent (s : State) : Option (LineEntry × DriveFrame) :=
  match s.fsc.drive with
  | .sending e (.drive _ f _) => some (e, f)
  | .sending _ (.valve _ _ _) | .sending _ (.fixture _ _ _) | .free | .assembling _ | .assemblingNull _ _ => none

/-- 7.9: the sending of POWER(on) at 200,012 sets the power deadline. -/
theorem test_power_deadline :
    let t := went (exec (.frameHandover .drive)
      ((driven (atShow .armed 0 200012) 4 poweringOn 1000 0).withLine .drive (.assemblingNull 4 (.power true))))
    t.dlc[(4 : Pump)].deadline = some 205012 ∧ driveSent t = some (.null 4, .power true) := by decide +kernel

/-- R134: a drive that has gone to FAULT since the choice is sent no POWER frame, and gets no deadline. -/
theorem test_fault_before_handover :
    let t := went (exec (.frameHandover .drive) ((driven idle 4 (drive .fault) 1000 0).withLine .drive (.assemblingNull 4 (.power true))))
    t.fsc.drive = .free ∧ t.dlc[(4 : Pump)] = drive .fault := by decide +kernel

/-- R81: a frame end frees its line. -/
theorem test_frame_end : (went (exec (.frameEnd .valve) (valveSending idle))).fsc.valve = .free := by decide +kernel

/-- A check over the fields as the statements name it exists. -/
theorem checks_exist (i : Pump) : ∃ check, ChecksDriveFrames i check :=
  ⟨fun f => match f with
    | .speed n => crc ([BitVec.ofNat 8 (i.val + 1), Config.speedKindCode] ++ bytes 2 n)
    | .power on => crc [BitVec.ofNat 8 (i.val + 1), Config.powerKindCode, if on then 1 else 0]
    | .clear => crc [BitVec.ofNat 8 (i.val + 1), Config.clearKindCode]
    | .probe => crc [BitVec.ofNat 8 (i.val + 1), Config.probeKindCode],
    by rintro _ rfl; exact ⟨fun _ => rfl, fun _ => rfl, rfl, rfl⟩⟩

theorem witness_HandoverWritesTheOutputTables :
    (bankComplete idle 5).fsc.valve = .assembling ⟨16, (List.replicate 32 5).map Answer.opening, .evaluate⟩ ∧
    (List.replicate 32 5).length = 32 ∧
    (let o := List.replicate 24 (⟨1, 2, 3, 4⟩ : Lamp);
     .fixtureB = lineOf 27 ∧ o.length = 24 ∧ (idle.withLine .fixtureB (.assembling ⟨27, o.map .lamp, .evaluate⟩)).fsc.line .fixtureB =
      .assembling ⟨27, o.map Answer.lamp, .evaluate⟩) ∧
    (∃ check, ChecksDriveFrames 15 check) ∧
    (idle.withLine .drive (.assembling ⟨15, [.speed 7], .evaluate⟩)).fsc.drive = .assembling ⟨15, [.speed 7], .evaluate⟩ ∧
    (valveSending idle).fsc.line .valve = .sending (.group 16) (.valve 16 [] 0) ∧
    (let s := fun d => (driven idle 15 d 1000 0).withLine .drive (.assemblingNull 15 (.power true));
     (∀ d, (s d).fsc.drive = .assemblingNull 15 (.power true)) ∧ (s poweringOn).dlc[(15 : Pump)].power ≠ .fault ∧
      (s (drive .fault)).dlc[(15 : Pump)].power = .fault) ∧ ∀ on, DriveFrame.clear ≠ .power on :=
  ⟨by decide +kernel, by decide +kernel, by decide +kernel, checks_exist 15, by decide +kernel, by decide +kernel,
    ⟨fun _ => rfl, by decide +kernel, by decide +kernel⟩, by simp⟩

/-! ## Pump governor -/

/-- The state with a pump's entry in the pump table. -/
def rated (s : State) (i : Pump) (e : PumpEntry) : State := s.withTables { s.tables with pumps := s.tables.pumps.set i e }

/-- The state with a budget. -/
def budgeted (s : State) (b : Nat) : State := s.withPgv { s.pgv with budget := b }

/-- A computation for a pump asked for a level. -/
def computed (s : State) (i : Pump) (n : Nat) : State :=
  went (exec (.commandComputation i) (asking s (pumpChannel i) (.answer (.level n))))

/-- 6.8: pump P3 at 600, the other pumps at 363,800 W, a budget of 400,000. -/
def pumpThree : State :=
  let s := driven (rated (atShow .running 0 1000) 3 ⟨75000, 1000, 300, 100, 100, 250, .none, 0, 0⟩) 3 (drive .on) 850 600
  budgeted (s.withPgv { s.pgv with pumps := s.pgv.pumps.set (4 : Pump) ⟨1000, 0, 363800, 0⟩, total := 380000 }) 400000

/-- 6.8: P3's headroom of 36,200 holds d2 to 784, and one step takes C to 602 and T to 380,162. -/
theorem test_headroom :
    pumpThree.budgetFit 3 850 = 784 ∧ (computed pumpThree 3 900).pgv.pumps[(3 : Pump)].commanded = 602 ∧
      (computed pumpThree 3 900).pgv.total = 380162 := by decide +kernel

/-- 6.9: two pumps of 100,000 W at 800, under a budget of 100,000. -/
def twoPumps : State :=
  let e : PumpEntry := ⟨100000, 1000, 250, 100, 100, 250, .none, 0, 0⟩
  budgeted (driven (driven (rated (rated (atShow .running 0 1000) 0 e) 1 e) 0 (drive .on) 1000 800) 1 (drive .on) 1000 800) 100000

/-- 6.9: P0 falls to 798 in the first cycle. -/
theorem test_lowered_budget :
    (computed twoPumps 0 800).pgv.pumps[(0 : Pump)] = ⟨1000, 798, 50816, 1000⟩ ∧
      (computed twoPumps 0 800).pgv.total = 102016 := by decide +kernel

/-- 6.11: a manifold with too little open holds P2 at its minimum run, so C falls by one step. -/
theorem test_manifold :
    let t := (rated idle 2 ⟨55000, 1000, 250, 100, 100, 250, .none, 2000, 0⟩)
    let u := budgeted (driven t 2 (drive .on) 1000 600) 400000
    (u.runRules 2 600 = 250) ∧ (computed u 2 600).pgv.pumps[(2 : Pump)].commanded = 598 := by decide +kernel

/-- 6.10: the TALL curve at 9.0 and 7.0 m/s. -/
theorem test_wind_factor : defaultTables.tall.factor 90 = 675 ∧ defaultTables.tall.factor 70 = 891 := by decide +kernel

/-- The bounds of R101: winds at and next to the start and the full reduction of the TALL curve. -/
theorem witness_TheWindCeilingFollowsTheCurve :
    let k := defaultTables.tall
    k.ws < k.wf ∧ k.floor ≤ 1000 ∧ 60 ≤ k.ws ∧ (k.ws < 61 ∧ 119 < k.wf) ∧ k.wf ≤ 120 ∧
      idle.tables.pumps[(15 : Pump)].windClass = .none ∧ idle.tables.curve .tall = some k := by decide +kernel

theorem witness_ThePowerFunctionFollowsTheCube : 999 ≤ 1000 := by decide

/-- A pump at rest; one ON whose demand fits; one held by the budget, by an emergency stop, by low water. -/
theorem witness_TheCommandComputationTakesOneStep :
    (asking pumpThree 3 (.answer (.level 900))).handedOn (pumpChannel 3) = some (⟨3, [], .answer (.level 900)⟩, .level 900) ∧
    idle.dlc[(15 : Pump)].present = false ∧
    (pumpThree.dlc[(3 : Pump)].present = true ∧ pumpThree.dlc[(3 : Pump)].power = .on ∧ pumpThree.estop = false ∧
      pumpThree.plm.lowWater = false) ∧
    twoPumps.pgv.total = ledgerTotal twoPumps.pgv.pumps ∧ twoPumps.pgv.budget < twoPumps.pgv.total ∧
    (stopped pumpThree).estop = true ∧ (pumpThree.withPlm { pumpThree.plm with lowWater := true }).plm.lowWater = true := by
  decide +kernel

/-- R110, R113: a raise by the governor, and one by adoption. -/
theorem witness_RaisesKeepTheAllowedSpeedTheBudgetAndTheRamp :
    let s := asking (budgeted (driven idle 3 (drive .on) 850 600) 400000) 3 (.answer (.level 900))
    let u := budgeted idle 400000
    (s.LedgerLaw ∧ s.pgv.pumps[(3 : Pump)].commanded < (went (exec (.commandComputation 3) s)).pgv.pumps[(3 : Pump)].commanded) ∧
    (sending u 5 .probe).LedgerLaw ∧ u.pgv.pumps[(5 : Pump)].commanded <
      (went (exec (.exchangeCompletion (replies 5 (.state .ready (telemetry 400 0)))) (sending u 5 .probe))).pgv.pumps[(5 : Pump)].commanded := by
  dsimp only
  rw [went_replies _ _ _ _ (by decide)]
  unfold State.LedgerLaw State.ShareLaw
  decide +kernel

theorem witness_EveryStepKeepsTheLedgerLaw :
    let s : State := { twoPumps with pending := [.coldReset] }
    let excess : State := { s with pgv := { s.pgv with excess := true } }
    (∃ t, step s = .next t) ∧ s.LedgerLaw ∧ (∃ t, step excess = .next t) ∧ excess.ExcessLaw ∧ idle.ExcessLaw :=
  ⟨⟨_, rfl⟩, by unfold State.LedgerLaw State.ShareLaw; decide +kernel, ⟨_, rfl⟩, by unfold State.ExcessLaw; decide +kernel,
    by unfold State.ExcessLaw; decide +kernel⟩

theorem witness_EveryStepKeepsTheAllowedSpeedLaw :
    let s : State := { twoPumps with pending := [.coldReset] }
    (∃ t, step s = .next t) ∧ s.TablesLaw ∧ s.AllowedLaw := by
  refine ⟨⟨_, rfl⟩, ?_, ?_⟩
  · unfold State.TablesLaw Tables.InRange PumpEntry.InRange WindCurve.InRange
    decide +kernel
  · unfold State.AllowedLaw
    decide +kernel

/-! ## Drive line -/

/-- The state with one drive record. -/
def withRecordOf (s : State) (i : Pump) (d : DriveRecord) : State := s.withDrive i d

/-- 7.10: a request for on of a drive in FAULT is refused; the drive powered up again is set pending. -/
theorem test_drive_power :
    replied (went (exec .drivePowerOn (asked (driven idle 9 (drive .fault) 1000 0) .plantPort 0x32 [9, 1]))) .plantPort =
      some (.driveFaulted, [1, 5]) ∧
    replied (went (exec .drivePowerOn (asked (driven idle 9 (drive .off) 1000 0) .plantPort 0x32 [9, 1]))) .plantPort =
      some (.ok, [1, 1]) ∧
    (went (exec .drivePowerOff (asked (driven idle 9 (drive .on) 1000 0) .plantPort 0x32 [9, 0]))).dlc[(9 : Pump)].power =
      .poweringDown := by decide +kernel

/-- Every record that a clause of the statement speaks of. -/
theorem witness_DrivePowerFollowsTheDriveRecord :
    let s := fun r d => asked (withRecordOf idle 15 d) .plantPort 0x32 [BitVec.ofNat 8 (15 : Pump).val, r]
    (∀ r d, (s r d).InExecution .plantPort 0x32 0x55 [BitVec.ofNat 8 (15 : Pump).val, r] ∧ (s r d).dlc[(15 : Pump)] = d) ∧
    DriveRecord.cold.present = false ∧
    (∀ x : Power, (drive x).present = true ∧ (drive x).power = x ∧ (drive x).pending = none) ∧
    ((owned idle 15 ⟨none, some ⟨.level 0, true, 0⟩, none⟩).heldOff 15 = true ∧ (s 1 (drive .off)).heldOff 15 = false) ∧
    (∀ x : Power, ({ drive .poweringDown with pending := some ⟨.powerOff, 1, x, false⟩ } : DriveRecord).pending =
      some ⟨.powerOff, 1, x, false⟩) ∧
    poweringOn.power = .poweringUp ∧ poweringOn.pending = some ⟨.powerOn, 200000, .off, false⟩ :=
  ⟨fun _ _ => ⟨asked_inExecution .., rfl⟩, rfl, fun _ => ⟨rfl, rfl, rfl⟩, by decide +kernel, fun _ => rfl, rfl, rfl⟩

/-- 7.10: DRIVE_CLEAR sets a CLEAR pending; 7.9: the power deadline expires. -/
theorem test_clear_and_timeout :
    (went (exec .driveClear (asked (driven idle 9 (drive .fault) 1000 0) .plantPort 0x33 [9]))).dlc[(9 : Pump)].pending =
      some ⟨.clear, 1000000, .fault, false⟩ ∧
    (let t := went (exec (.powerDeadlineExpiry 4)
      (driven (atShow .armed 0 205013) 4 { poweringOn with pending := none, deadline := some 205013 } 1000 0))
     t.dlc[(4 : Pump)].fault = some .powerTimeout ∧ noticed t .showPort = [(.driveFault, 4, 256)]) := by decide +kernel

theorem witness_ClearsArePendingAndPowerDeadlinesExpire :
    let s := fun d => asked (withRecordOf (atShow .idle 0 5) 15 d) .plantPort 0x33 [BitVec.ofNat 8 (15 : Pump).val]
    (∀ d, (s d).InExecution .plantPort 0x33 0x55 [BitVec.ofNat 8 (15 : Pump).val] ∧ (s d).dlc[(15 : Pump)] = d) ∧
    ((drive .fault).present = true ∧ (drive .fault).power = .fault) ∧
    (false = true ↔ ∃ time prior, (drive .fault).pending = some ⟨.clear, time, prior, true⟩) ∧
    (true = true ↔ ∃ time prior, ({ drive .fault with pending := some ⟨.clear, 1, .fault, true⟩ } : DriveRecord).pending =
      some ⟨.clear, time, prior, true⟩) ∧
    DriveRecord.cold.present = false ∧ (drive .on).power ≠ .fault ∧
    (let late : DriveRecord := { drive .poweringDown with deadline := some 5 }
     late.deadline = some 5 ∧ late.power = .poweringDown ∧ ((s late).clock.now - 5).toNat < 2147483648) ∧
    ((2147483652 : Time) - 5).toNat < 2147483648 :=
  ⟨fun _ => ⟨asked_inExecution .., rfl⟩, ⟨rfl, rfl⟩, by simp [drive], by simp, rfl, by decide, by decide +kernel, by decide⟩

/-- R137: the expiry of a power deadline raises DRIVE_FAULT with detail 256 to the PLANT and SHOW ports. -/
theorem test_power_timeout :
    let t := went (exec (.powerDeadlineExpiry 4) (driven idle 4 { poweringOn with pending := none, deadline := some 5 } 1000 0))
    t.dlc[(4 : Pump)].fault = some .powerTimeout ∧ noticed t .plantPort = [(.driveFault, 4, 256)] ∧
      noticed t .showPort = [(.driveFault, 4, 256)] := by decide +kernel

/-- 7.11: a probe answered READY at 630 adopts the speed. -/
theorem test_found :
    let t := went (exec (.exchangeCompletion (replies 11 (.state .ready (telemetry 630 0)))) (sending (budgeted idle 20000) 11 .probe))
    t.dlc[(11 : Pump)].power = .on ∧ t.pgv.pumps[(11 : Pump)] = ⟨1000, 630, 13752, 1000000⟩ ∧ t.pgv.total = 13752 ∧
      noticed t .plantPort = [(.driveFound, 11, 630)] := by
  rw [went_replies _ _ _ _ (by decide)]
  decide +kernel

/-- 7.10: a trip with code 41. -/
theorem test_tripped :
    let t := went (exec (.exchangeCompletion (replies 9 (.state .tripped (telemetry 0 41))))
      (sending (budgeted (driven idle 9 (drive .on) 1000 700) 100000) 9 (.speed 700)))
    t.dlc[(9 : Pump)].fault = some (.trip 41) ∧ t.pgv.total = 0 ∧ noticed t .showPort = [(.driveFault, 9, 41)] := by
  rw [went_replies _ _ _ _ (by decide)]
  decide +kernel

/-- R131: REFUSED to a POWER(on) drops the command it carried, and leaves one that a request has put in its place since. -/
theorem test_refused :
    let after := fun framed => (went (exec (.exchangeCompletion (replies 4 .refused)) (sending (driven idle 4
      { drive .off with power := .poweringUp, pending := some ⟨.powerOn, 1, .off, framed⟩ } 1000 0) 4 (.power true)))).dlc[(4 : Pump)]
    (after true).pending = none ∧ (after true).power = .off ∧
      (after false).pending = some ⟨.powerOn, 1, .off, false⟩ ∧ (after false).power = .poweringUp := by
  dsimp only
  simp only [went_replies _ _ _ _ (by decide : ReplyKind.refused ≠ .other)]
  decide +kernel

/-- R100: a return from local control is adopted also at speed 0, and sets the time of last command. -/
theorem test_return_from_local :
    let t := went (exec (.exchangeCompletion (replies 4 (.state .ready (telemetry 0 0))))
      (sending (driven idle 4 (drive .underLocal) 1000 0) 4 (.speed 0)))
    t.dlc[(4 : Pump)].power = .on ∧ t.pgv.pumps[(4 : Pump)] = ⟨1000, 0, 0, 1000000⟩ := by
  rw [went_replies _ _ _ _ (by decide)]
  decide +kernel

/-- 7.11: the third miss loses the drive. -/
theorem test_lost :
    let t := went (exec (.exchangeCompletion [])
      (sending (budgeted (driven idle 11 { drive .on with misses := 2 } 1000 650) 100000) 11 (.speed 650)))
    t.dlc[(11 : Pump)].present = false ∧ t.pgv.total = 0 ∧ noticed t .plantPort = [(.driveLost, 11, 650)] := by decide +kernel

/-- 7.9: READY ends POWERING_UP. -/
theorem test_ready :
    let t := went (exec (.exchangeCompletion (replies 4 (.state .ready (telemetry 0 0))))
      (sending (driven idle 4 { poweringOn with pending := none, deadline := some 205013 } 1000 0) 4 (.speed 0)))
    t.dlc[(4 : Pump)].power = .on ∧ t.dlc[(4 : Pump)].deadline = none ∧ noticed t .plantPort = [(.driveReady, 4, 0)] := by
  rw [went_replies _ _ _ _ (by decide)]
  decide +kernel

/-- The budget test at its edge: the total above the budget with the flag clear, at it with the flag set, and neither. -/
theorem witness_BudgetTested :
    let s := budgeted idle 100
    let raised := s.withPgv { s.pgv with excess := true }
    (s.pgv.excess = false ∧ s.pgv.budget < 101) ∧ (raised.pgv.excess = true ∧ 100 ≤ raised.pgv.budget) ∧
    (s.pgv.excess = true ↔ s.pgv.budget < 100) := by decide +kernel

/-- Misses one below and at the last, the reply windows with and without a good reply, and a record for each clause: the refused
commands with their prior states, trips with and without a CLEAR carried, LOCAL entered, kept and left, and every row of the two
tables, held off and not. -/
theorem witness_ExchangesAreJudgedAtTheirCompletion :
    let s := fun d f => sending (withRecordOf idle 15 d) 15 f
    let held := owned idle 15 ⟨none, some ⟨.level 0, true, 0⟩, none⟩
    let clearing : DriveRecord := { drive .fault with fault := some (.trip 41), pending := some ⟨.clear, 1, .fault, true⟩ }
    (∀ d f, (s d f).dlc[(15 : Pump)] = d ∧ (s d f).fsc.drive = .sending (.group 15) (.drive 15 f 0)) ∧
    (∀ k, ∃ later, replies 15 k = ⟨(15 : Pump).val + 1, k, replyCheck ((15 : Pump).val + 1) k⟩ :: later) ∧
    (∀ w : ReplyFrame, ([] : List ReplyFrame).head? = some w →
      w.check ≠ replyCheck w.address w.kind ∨ w.address ≠ (15 : Pump).val + 1 ∨ w.kind = .other) ∧
    (∀ w : ReplyFrame, [(⟨15, .other, 0⟩ : ReplyFrame)].head? = some w →
      w.check ≠ replyCheck w.address w.kind ∨ w.address ≠ (15 : Pump).val + 1 ∨ w.kind = .other) ∧
    ((drive .on).present = true ∧ ({ drive .on with misses := 1 } : DriveRecord).misses < 2 ∧
      2 ≤ ({ drive .on with misses := 2 } : DriveRecord).misses ∧ DriveRecord.cold.present = false) ∧
    ((telemetry 1 0).faultCode = 0 ∧ 0 < (telemetry 1 0).speed ∧ ¬ 0 < (telemetry 0 0).speed ∧
      (telemetry 0 255).faultCode ≠ 0 ∧ min (telemetry 1001 0).speed 1000 = 1000) ∧
    (∀ x : Power, (drive x).present = true ∧ (drive x).power = x ∧ (drive x).pending = none ∧ (drive x).fault = none) ∧
    (poweringOn.power = .poweringUp ∧ poweringOn.pending = some ⟨.powerOn, 200000, .off, false⟩ ∧
      ({ poweringOn with pending := some ⟨.powerOn, 1, .off, true⟩ } : DriveRecord).pending = some ⟨.powerOn, 1, .off, true⟩) ∧
    (clearing.power = .fault ∧ clearing.fault = some (.trip 41) ∧ clearing.pending = some ⟨.clear, 1, .fault, true⟩) ∧
    (held.heldOff 15 = true ∧ idle.heldOff 15 = false) :=
  ⟨fun _ _ => ⟨rfl, rfl⟩, fun _ => ⟨[], rfl⟩, by simp, by rintro w ⟨⟩; exact .inr (.inl (by decide)), by decide, by decide,
    fun _ => ⟨rfl, rfl, rfl, rfl⟩, by decide, by decide, by decide +kernel⟩

theorem witness_EveryStepKeepsTheAbsentDriveLaw :
    let s : State := { sending idle 11 .probe with pending := [.exchangeCompletion []] }
    (∃ t, step s = .next t) ∧ (∀ i : Pump, s.dlc[i].AbsentLaw) ∧ ∀ i : Pump, s.dlc[i].FaultLaw := by
  refine ⟨⟨_, rfl⟩, by unfold DriveRecord.AbsentLaw; decide +kernel, ?_⟩
  unfold DriveRecord.FaultLaw
  intro i
  refine ⟨by revert i; decide +kernel, fun p hp => ?_⟩
  have none_pending : ∀ i : Pump, (sending idle 11 .probe).dlc[i].pending = none := by decide +kernel
  exact absurd (hp.symm.trans (none_pending i)) (by simp)

/-! ## Output unit -/

/-- The answers gathered after the third ask for a jet or fixture, the last one. -/
def answered (s : State) (c : Channel) : Option Answer :=
  match s.fsc.line (lineOf (groupOf c)) with
  | .assembling g => g.answers.getLast?
  | .free | .assemblingNull _ _ | .sending _ _ => none

/-- The state with a fixture's entry in the fixture table. -/
def fitted (s : State) (f : Fixture) (e : FixtureEntry) : State :=
  s.withTables { s.tables with fixtures := s.tables.fixtures.set f e }

/-- The state with a fresh basin level. -/
def levelled (s : State) (mm : Nat) : State :=
  s.withPlm { s.plm with basinLevel := some mm, levelDeadline := some (s.clock.now + 1) }

/-- The state with a jet's entry in the jet table. -/
def jetted (s : State) (j : Jet) (e : JetEntry) : State := s.withTables { s.tables with jets := s.tables.jets.set j e }

/-- 8.4: L50 unexposed and exposed. -/
theorem test_rendering :
    let e : FixtureEntry := ⟨.rgbw, .auto, some 1800, 26, ⟨0, 0, 0, 255, 102⟩, ⟨0, 0, 0, 0, 0⟩⟩
    let a : Ask := .answer (.colour ⟨200, 120, 80, 10, 255⟩)
    answered (went (exec (.fixtureRendering 50) (asking (levelled (fitted idle 50 e) 1950) 194 a))) 194 =
      some (.lamp ⟨120, 40, 0, 90⟩) ∧
    answered (went (exec (.fixtureRendering 50) (asking (levelled (fitted idle 50 e) 1760) 194 a))) 194 =
      some (.lamp ⟨12, 4, 0, 9⟩) := by decide +kernel

/-- 8.4: an RGB fixture renders the safety colour during an emergency stop. -/
theorem test_safety_colour :
    let e : FixtureEntry := ⟨.rgb, .direct, none, 26, ⟨0, 0, 0, 255, 102⟩, ⟨0, 0, 0, 0, 0⟩⟩
    answered (went (exec (.fixtureRendering 60)
      (asking (stopped (fitted idle 60 e)) 204 (.answer (.colour ⟨1, 2, 3, 4, 5⟩))))) 204 = some (.lamp ⟨102, 102, 102, 0⟩) := by
  decide +kernel

/-- 8.5: J0 holds its entry while P2 reports 600, and shuts when P2 reports 240. -/
theorem test_hold_rule :
    let s := fun n => stopped (opened (driven (jetted idle 0 ⟨.proportional, some 2, 0⟩) 2
      { drive .on with telemetry := some (telemetry n 0) } 1000 600) 700)
    answered (went (exec (.valveAnswer 0) (asking (s 600) 16 (.answer (.level 5))))) 16 = some (.opening 700) ∧
    answered (went (exec (.valveAnswer 0) (asking (s 240) 16 (.answer (.level 5))))) 16 = some (.opening 0) := by decide +kernel

/-- R141: an ONOFF jet opens from 500 on. -/
theorem test_on_off :
    let s := fun n => asking (jetted idle 0 ⟨.onOff, none, 0⟩) 16 (.answer (.level n))
    answered (went (exec (.valveAnswer 0) (s 499))) 16 = some (.opening 0) ∧
    answered (went (exec (.valveAnswer 0) (s 500))) 16 = some (.opening 1000) := by decide +kernel

/-- The third ask outstanding for the last jet and the last fixture, and what each clause asks of the tables. -/
theorem witness_JetsAndFixturesAreAnswered :
    ((asking idle 143 (.answer (.level 1000))).handedOn (jetChannel 127) =
      some (⟨19, List.replicate 31 (.opening 0), .answer (.level 1000)⟩, .level 1000)) ∧
    ((asking idle 335 (.answer (.level 0))).handedOn (fixtureChannel 191) =
      some (⟨27, List.replicate 23 (.lamp ⟨0, 0, 0, 0⟩), .answer (.level 0)⟩, .level 0)) ∧
    (stopped idle).estop = true ∧ idle.estop = false ∧ idle.tables.jets[(0 : Jet)].mode = .proportional ∧
    (jetted idle 0 ⟨.onOff, none, 0⟩).tables.jets[(0 : Jet)].mode = .onOff ∧
    (idle.tables.fixtures[(0 : Fixture)].emitters = .rgbw ∧ idle.tables.fixtures[(0 : Fixture)].white = .direct) := by
  decide +kernel

theorem witness_NoJetOutputRisesDuringAnEmergencyStop :
    (stopped idle).estop = true ∧ ∃ t, exec (.frameHandover .valve) (bankComplete (stopped idle) 5) = .next t :=
  ⟨by decide +kernel, ⟨_, rfl⟩⟩

/-! ## Plant monitor -/

/-- 6.10: the staleness of the wind brings P7 to 350; a report of 50 raises it to 370. -/
theorem test_wind :
    let e : PumpEntry := ⟨55000, 1000, 250, 100, 100, 250, .tall, 0, 0⟩
    let s := driven (rated idle 7 e) 7 (drive .on) 695 600
    (went (exec .windDeadlineExpiry (s.withPlm { s.plm with windSpeed := some 70, windDeadline := some 999999 }))).pgv.pumps[(7 : Pump)].allowed =
      350 ∧
    (went (exec .wind (asked (driven (rated idle 7 e) 7 (drive .on) 350 0) .plantPort 0x34 (bytes 2 50)))).pgv.pumps[(7 : Pump)].allowed =
      370 := by decide +kernel

/-- 9.8: a report of 296 sets the low-water flag; 351 clears it, 349 does not. -/
theorem test_low_water :
    let low := idle.withPlm { idle.plm with lowWater := true }
    noticed (went (exec .level (asked idle .plantPort 0x35 (bytes 2 296)))) .plantPort = [(.lowWater, 0, 296)] ∧
    (went (exec .level (asked low .plantPort 0x35 (bytes 2 349)))).plm.lowWater = true ∧
    noticed (went (exec .level (asked low .plantPort 0x35 (bytes 2 351)))) .plantPort = [(.waterOk, 0, 351)] := by decide +kernel

/-- 6.9: a report of 100,000 W below a total of 102,400 raises BUDGET_EXCESS. -/
theorem test_budget :
    noticed (went (exec .budget (asked twoPumps .plantPort 0x36 (bytes 4 100000)))) .plantPort = [(.budgetExcess, 0, 2400)] := by
  decide +kernel

/-- Reports at each edge: 600, 299, 300, 349, 350, and budgets below, at and above the total. -/
theorem witness_PlantReportsAreStoredAndActedOn :
    let s := fun base kind body => asked base .plantPort kind body
    let low := idle.withPlm { idle.plm with lowWater := true }
    let high := twoPumps.withPgv { twoPumps.pgv with excess := true }
    (∀ base kind body, (s base kind body).InExecution .plantPort kind 0x55 body) ∧
    ([0#8].length ≠ 2 ∧ [0#8].length ≠ 4 ∧ (bytes 2 601).length = 2 ∧ (bytes 4 0).length = 4) ∧
    (600 = min (field (bytes 2 601) 0 2) 600 ∧ 5000 = min (field (bytes 2 5001) 0 2) 5000) ∧
    ((s idle 0x35 []).plm.lowWater = false ∧ 299 < (s idle 0x35 []).tables.limits.lowLevelTrip ∧
      (s idle 0x35 []).tables.limits.lowLevelTrip ≤ 300) ∧
    ((s low 0x35 []).plm.lowWater = true ∧ 349 < (s low 0x35 []).tables.limits.lowLevelTrip + 50 ∧
      (s low 0x35 []).tables.limits.lowLevelTrip + 50 ≤ 350) ∧
    (4000000 = min (field (bytes 4 4000001) 0 4) 4000000 ∧ (s twoPumps 0x36 []).pgv.excess = false ∧
      102399 < (s twoPumps 0x36 []).pgv.total ∧ (s high 0x36 []).pgv.excess = true ∧ (s high 0x36 []).pgv.total ≤ 102400) := by
  refine ⟨fun _ _ _ => asked_inExecution .., ?_⟩
  decide +kernel

theorem witness_ReportsGoStaleAtTheirDeadlines :
    let s := (idle.withPlm { idle.plm with
      windSpeed := some 70, windDeadline := some 1000000, basinLevel := some 288, levelDeadline := some 1000000 })
    (s.clock.now - 1000000).toNat < 2147483648 ∧ s.plm.windDeadline = some 1000000 ∧ s.plm.windSpeed = some 70 ∧
      s.plm.levelDeadline = some 1000000 ∧ s.plm.basinLevel = some 288 := by decide +kernel

/-- 9.8: a level that has gone stale keeps its value. -/
theorem test_level_stale :
    let t := went (exec .levelDeadlineExpiry
      (idle.withPlm { idle.plm with basinLevel := some 288, levelDeadline := some 999999, lowWater := true }))
    t.plm.levelDeadline = none ∧ t.plm.lowWater = true ∧ noticed t .showPort = [(.levelStale, 0, 288)] := by decide +kernel

/-- 9.9: the line is taken at its debounce deadline, during a show at 2,880,480 with J40 claimed. -/
def lineFalling : State :=
  let s := owned (playing (atShow .running 2880480 900010) (blocks 2880480 30)) 56 ⟨some claim40, none, none⟩
  s.withPlm { s.plm with rawLow := true, debounce := some 900010 }

/-- 9.9: the entry operation. -/
theorem test_entry :
    let t := went (exec .debounceDeadlineExpiry lineFalling)
    t.plm.stop = some ⟨.line, 900010, 0⟩ ∧ t.seq.showState = .idle ∧ t.seq.idleCause = .estop ∧ t.cst.free = 3760 ∧
      t.plu.queue = [] ∧ t.cha.claimCount = 0 ∧
      noticed t .consolePort = [(.estop, 0, 1), (.showState, 0, 2880480), (.claimLost, 56, 65535)] := by decide +kernel

/-- 9.9: ESTOP_RESET while the line holds, and the exit when the line is released. -/
theorem test_reset_and_exit :
    let held := (stopped idle).withPlm { (stopped idle).plm with
      lineActive := true, stop := some ⟨.line, 900010, 10000⟩, debounce := some 910010, rawLow := false, latch := false }
    replied (went (exec .estopReset (asked held .plantPort 0x31 []))) .plantPort = some (.estopActive, [0, 0, 1]) ∧
    (let t := went (exec .debounceDeadlineExpiry (held.withClock ⟨910010, 1, true⟩))
     t.plm.stop = none ∧ noticed t .showPort = [(.estopClear, 0, 10000)] ∧
      t.cha.records[(154 : Channel)].rejoin = some ⟨.colour ⟨0, 0, 0, 255, 102⟩, 910010, 500⟩) := by decide +kernel

/-- The exit from the stop of the latch, and its state after it. -/
def leaving (s : State) : State := went (exec .estopReset (asked (stopped s) .plantPort 0x31 []))

/-- R145, R153: a jet held at 700 whose rest value was selected before the exit is answered 700 after it, a locked jet from its lock
value, and a fixture is rendered in its safety colour. -/
theorem test_exit_before_answer :
    let open700 := idle.withOut { idle.out with valves := idle.out.valves.set 40 700 }
    let locked := open700.withRecord 56 ⟨none, some ⟨.level 250, false, 7⟩, none⟩
    answered (went (exec (.valveAnswer 40) (leaving (asking open700 56 (.answer (.level 0)))))) 56 = some (.opening 700) ∧
    answered (went (exec (.valveAnswer 40) (leaving (asking locked 56 (.answer (.level 250)))))) 56 = some (.opening 250) ∧
    answered (went (exec (.fixtureRendering 10) (leaving (asking idle 154 (.answer (.colour ⟨1, 2, 3, 4, 5⟩)))))) 154 =
      some (.lamp ⟨0, 0, 0, 102⟩) := by decide +kernel

/-- R104: a pump whose 900 was selected before the exit is computed for 900 after it, and takes one step up from its C of 600. -/
theorem test_exit_before_computation :
    (went (exec (.commandComputation 3) (leaving (asking pumpThree 3 (.answer (.level 900)))))).pgv.pumps[(3 : Pump)].commanded =
      602 := by decide +kernel

/-- R168: the length of a stop is held at 4,294,967,295 ms. -/
theorem test_stop_length :
    let s := (stopped idle).withClock ⟨1000000, 2, true⟩
    let long := s.withPlm { s.plm with stop := some ⟨.latch, 1000000, 4294967295⟩ }
    (went (exec .slotExpiry s)).plm.stop = some ⟨.latch, 1000000, 1⟩ ∧
    (went (exec .slotExpiry long)).plm.stop = some ⟨.latch, 1000000, 4294967295⟩ := by decide +kernel

/-- R162: a change of the raw input sets the debounce deadline; the release of RESET_N judges the level as it stands. -/
theorem test_debounce :
    (went (exec (.estopNChange true) (atShow .running 0 900000))).plm.debounce = some 900010 ∧
    (went (exec .resetNRelease (went (exec (.estopNChange true) State.reset)))).plm.debounce = some 10 := by decide +kernel

theorem witness_TheEmergencyStopIsEnteredAndLeft :
    let s := fun base kind => asked base .plantPort kind []
    let held := (stopped idle).withPlm { (stopped idle).plm with lineActive := true }
    (∀ base kind, (s base kind).InExecution .plantPort kind 0x55 []) ∧
    ((s idle 0x30).plm.stop = none ∧ (s (stopped idle) 0x30).plm.stop ≠ none) ∧
    ((s held 0x31).plm.lineActive = true ∧ (s held 0x31).plm.stop ≠ none) ∧
    ((s (stopped idle) 0x31).plm.lineActive = false ∧ (s (stopped idle) 0x31).plm.stop = some ⟨.latch, 1000000, 0⟩ ∧
      (s idle 0x31).plm.stop = none) ∧
    (idle.clock.released = true ∧ true ≠ idle.plm.rawLow ∧ State.reset.clock.released = false) ∧
    (lineFalling.plm.debounce = some 900010 ∧ (lineFalling.clock.now - 900010).toNat < 2147483648 ∧
      lineFalling.plm.rawLow ≠ lineFalling.plm.lineActive ∧ lineFalling.plm.stop = none ∧ lineFalling.plm.rawLow = true) ∧
    (let rising := held.withPlm { held.plm with latch := false, debounce := some 1000000 }
     rising.plm.stop = some ⟨.latch, 1000000, 0⟩ ∧ rising.plm.rawLow = false ∧ rising.plm.latch = false ∧
      rising.plm.rawLow ≠ rising.plm.lineActive ∧ (rising.clock.now - 1000000).toNat < 2147483648) ∧
    (asking (stopped idle) 143 (.answer (.level 0))).handedOn 143 =
      some (⟨19, List.replicate 31 (.opening 0), .answer (.level 0)⟩, .level 0) ∧
    (asking (stopped idle) 16 (.answer (.level 0))).handedOn 16 = some (⟨16, [], .answer (.level 0)⟩, .level 0) := by
  refine ⟨fun _ _ => asked_inExecution .., ?_⟩
  decide +kernel

theorem witness_EveryStepKeepsTheEmergencyStopLaw :
    let s : State := { stopped idle with pending := [.coldReset] }
    let held : State := { State.reset with pending := [.transactionStart .plantPort] }
    (∃ t, step s = .next t) ∧ s.plm.StopLaw ∧ s.StoppedLaw ∧
      ((∃ t, step held = .next t) ∧ held.clock.released = false ∧ held.HeldLaw) ∧ s.StopLengthLaw := by
  refine ⟨⟨_, rfl⟩, by unfold Plm.StopLaw; decide +kernel, by unfold State.StoppedLaw; decide +kernel,
    ⟨⟨_, rfl⟩, rfl, fun _ => rfl⟩, ?_⟩
  rintro e he
  cases he
  decide +kernel

/-! ## Configuration -/

/-- The body of a pump item (R189). -/
def pumpBody (i : Nat) (fields : List Nat) : List Byte := [1, BitVec.ofNat 8 i] ++ fields.flatMap (bytes 4)

/-- The state with the configuration OPEN. -/
def openWith (s : State) (held : Tables) : State :=
  (s.withCfg ⟨.opened, held⟩).withSeq { s.seq with showState := .unconfigured }

/-- 11.6: CONFIG_OPEN finds P5 at 302, and later at 0. -/
theorem test_config_open :
    replied (went (exec .configOpen (asked (driven State.reset 5 (drive .on) 1000 302) .plantPort 0x40 []))) .plantPort =
      some (.busyState, [5]) ∧
    (went (exec .configOpen (asked (driven State.reset 5 (drive .on) 1000 0) .plantPort 0x40 []))).cfg.state = .opened := by
  decide +kernel

/-- 11.6: the pump item of P5 is written; one for P7 with MR 600 is refused. -/
theorem test_config_write :
    let s := openWith idle defaultTables
    let t := went (exec .configWrite (asked s .plantPort 0x41 (pumpBody 5 [90000, 1000, 300, 80, 80, 250, 3, 1500, 0])))
    t.cfg.held.pumps[(5 : Pump)] = ⟨90000, 1000, 300, 80, 80, 250, .tall, 1500, 0⟩ ∧
    replied (went (exec .configWrite (asked s .plantPort 0x41 (pumpBody 7 [55000, 1000, 600, 100, 100, 250, 0, 0, 0])))) .plantPort =
      some (.badArgument, []) := by decide +kernel

/-- 11.6: the tables after the writes, PS of P6 and ResumeLevel as given. -/
def written (ps resumeLevel : Nat) : Tables := { defaultTables with
  pumps := (defaultTables.pumps.set (5 : Pump) ⟨90000, 1000, 300, 80, 80, 250, .tall, 1500, 0⟩).set (6 : Pump)
    ⟨55000, ps, 250, 100, 100, 250, .none, 0, 0⟩
  limits := { defaultLimits with resumeLevel := resumeLevel } }

/-- 11.6: the three commits. -/
theorem test_commits :
    replied (went (exec .configCommit (asked (openWith idle (written 200 20000)) .plantPort 0x42 []))) .plantPort =
      some (.badConfig, [4, 1, 6]) ∧
    replied (went (exec .configCommit (asked (openWith idle (written 800 20000)) .plantPort 0x42 []))) .plantPort =
      some (.badConfig, [6, 6, 0]) ∧
    (let t := went (exec .configCommit (asked (openWith idle (written 800 9600)) .plantPort 0x42 []))
     t.cfg.state = .valid ∧ t.seq.showState = .idle ∧ t.pgv.pumps[(5 : Pump)].allowed = 350) := by decide +kernel

/-- The body of an item whose fields have four bytes (R189). -/
def itemBody (code index : Nat) (fields : List Nat) : List Byte :=
  [BitVec.ofNat 8 code, BitVec.ofNat 8 index] ++ fields.flatMap (bytes 4)

/-- The limits at their lower and upper bounds (R189). -/
def limitsLow : List Nat := [0, 0, 0, 0, 1000, 0, 500, 0, 0, 0, 1, 1000, 1000, 0, 1000, 0]
def limitsHigh : List Nat :=
  [65535, 65535, 12960, 96000, 60000, 60000, 10000, 10000, 10000, 10000, 200, 60000, 60000, 4950, 30000, 2048]

/-- 11.6, R189: a wind curve, a slot table entry and a limit are written to the held tables. -/
theorem test_other_items :
    let s := openWith idle defaultTables
    let t := fun body => (went (exec .configWrite (asked s .plantPort 0x41 body))).cfg.held
    (t (itemBody 4 2 [50, 100, 600])).mid = ⟨50, 100, 600⟩ ∧
    (t ([5, 0] ++ List.replicate 39 255 ++ [27])).slots[(39 : Slot)] = some 27 ∧
    (t (itemBody 6 0 limitsHigh)).limits.lowPool = 2048 ∧
    (t (itemBody 2 0 [1, 3, 250])).jets[(0 : Jet)] = ⟨.proportional, some 3, 250⟩ := by decide +kernel

/-- Each field of each item at its bounds, and one beyond each. -/
theorem witness_TheConfigurationIsOpenedAndWritten :
    let s := fun base kind body => asked base .plantPort kind body
    (∀ base kind body, (s base kind body).InExecution .plantPort kind 0x55 body) ∧
    (s (openWith idle defaultTables) 0x41 []).cfg.state = .opened ∧
    ((s (atShow .armed 0 0) 0x40 []).cfg.state ≠ .opened ∧ (s (atShow .armed 0 0) 0x40 []).seq.showState ≠ .idle ∧
      (s (atShow .armed 0 0) 0x40 []).seq.showState ≠ .unconfigured) ∧
    (let busy := s (driven (driven idle 15 (drive .underLocal) 1000 0) 0 (drive .on) 1000 1) 0x40 []
     busy.cfg.state ≠ .opened ∧ busy.seq.showState = .idle ∧ 0 < busy.pgv.pumps[(0 : Pump)].commanded ∧
      busy.dlc[(15 : Pump)].power = .underLocal ∧
      ∀ j : Pump, j < 0 → busy.pgv.pumps[j].commanded = 0 ∧ busy.dlc[j].power ≠ .underLocal) ∧
    (∀ i : Pump, (s idle 0x40 []).pgv.pumps[i].commanded = 0 ∧ (s idle 0x40 []).dlc[i].power ≠ .underLocal) ∧
    (∀ f ∈ [[250000, 1000, 500, 1000, 1000, 1000, 3, 32000, 1000], [0, 0, 50, 10, 10, 10, 0, 0, 0]],
      f.length = 9 ∧ (∀ n ∈ f, n < 4294967296) ∧ (pumpItem (pumpBody 15 f)).isSome = true) ∧
    (∀ f ∈ [[250001, 0, 50, 10, 10, 10, 0, 0, 0], [0, 1001, 50, 10, 10, 10, 0, 0, 0], [0, 0, 49, 10, 10, 10, 0, 0, 0],
        [0, 0, 501, 10, 10, 10, 0, 0, 0], [0, 0, 50, 9, 10, 10, 0, 0, 0], [0, 0, 50, 1001, 10, 10, 0, 0, 0],
        [0, 0, 50, 10, 9, 10, 0, 0, 0], [0, 0, 50, 10, 1001, 10, 0, 0, 0], [0, 0, 50, 10, 10, 9, 0, 0, 0],
        [0, 0, 50, 10, 10, 1001, 0, 0, 0], [0, 0, 50, 10, 10, 10, 4, 0, 0], [0, 0, 50, 10, 10, 10, 0, 32001, 0],
        [0, 0, 50, 10, 10, 10, 0, 0, 1001]], f.length = 9 ∧ (pumpItem (pumpBody 15 f)).isSome = false) ∧
    (∀ f ∈ [[0, 15, 1000], [1, 0xFFFFFFFF, 0]], (jetItem (itemBody 2 127 f)).isSome = true) ∧
    (∀ f ∈ [[2, 15, 0], [0, 16, 0], [0, 0xFFFFFFFE, 0], [0, 0, 1001]], (jetItem (itemBody 2 127 f)).isSome = false) ∧
    (∀ f ∈ [[0, 0, 5000, 255], [1, 1, 0xFFFFFFFF, 0]],
      (fixtureItem (itemBody 3 191 f ++ List.replicate 10 255)).isSome = true) ∧
    (∀ f ∈ [[2, 0, 0, 0], [0, 2, 0, 0], [0, 0, 5001, 0], [0, 0, 0, 256]],
      (fixtureItem (itemBody 3 191 f ++ List.replicate 10 255)).isSome = false) ∧
    ((curveItem (itemBody 4 3 [600, 600, 1000])).isSome = true ∧ (∀ f ∈ [[601, 0, 0], [0, 601, 0], [0, 0, 1001]],
      (curveItem (itemBody 4 3 f)).isSome = false)) ∧
    ((slotsItem ([5, 0] ++ List.replicate 39 27 ++ [255])).isSome = true ∧
      (slotsItem ([5, 0] ++ List.replicate 39 27 ++ [28])).isSome = false) ∧
    ((limitsItem (itemBody 6 0 limitsLow)).isSome = true ∧ (limitsItem (itemBody 6 0 limitsHigh)).isSome = true ∧
      ∀ n < 16, (limitsItem (itemBody 6 0 (limitsHigh.modify n (· + 1)))).isSome = false) := by
  refine ⟨fun _ _ _ => asked_inExecution .., ?_⟩
  decide +kernel

/-- The default slot table meets the spacing of R79 on both fixture lines. -/
theorem defaultSlots_spaced : ∀ m n : Slot, m < n → 20 ≤ (defaultSlots[m].getD 0).val → 20 ≤ (defaultSlots[n].getD 0).val →
    ((defaultSlots[m].getD 0).val < 24 ↔ (defaultSlots[n].getD 0).val < 24) → 3 ≤ n.val - m.val ∧ 3 ≤ 40 - (n.val - m.val) := by
  decide +kernel

theorem witness_TheCommitInstallsCheckedTables :
    let s := fun base => asked base .plantPort 0x42 []
    (∀ base, (s base).InExecution .plantPort 0x42 0x55 []) ∧ (s idle).cfg.state ≠ .opened ∧
    (s (openWith idle (written 800 9600))).cfg.state = .opened ∧
    (s (openWith idle (written 800 9600))).cfg.held.Committable ∧
    ¬ (s (openWith idle (written 200 9600))).cfg.held.Committable ∧
    (∀ g : Group, g.val < 1 → ∃ n : Slot, (defaultSlots.set 1 none)[n] = some g) ∧
    (let low := fun a b => ({ defaultTables with low := ⟨a, b, 0⟩ } : Tables)
     (low 60 60).low.wf ≤ (low 60 60).low.ws ∧ (low 59 60).low.ws < (low 59 60).low.wf) ∧
    (15360 < 15361 ∧ (0 < 1 ∧ 15360 < 15361)) := by
  refine ⟨fun _ => asked_inExecution .., by decide +kernel, by decide +kernel, ⟨?_, ?_, ?_, ?_, ?_⟩,
    fun h => absurd (h.2.2.2.1 6) (by decide +kernel), by decide +kernel, by decide +kernel, by decide⟩
  · decide +kernel
  · intro m n g h hmn hm hn
    have := defaultSlots_spaced m n hmn
    rwa [show defaultSlots[m] = some g from hm, show defaultSlots[n] = some h from hn] at this
  all_goals decide +kernel

/-- R194: cold reset in the middle of a show. -/
theorem test_cold_reset :
    let t := went (exec .coldReset (cued (armed 40) 21 twoCues (.level 5)))
    t.seq.showState = .unconfigured ∧ t.plu.position = 0 ∧ t.cst.free = 4096 ∧ t.cfg.state = .defaults := by decide +kernel

/-- R193: RESTART in RUNNING. -/
theorem test_restart :
    let t := went (exec .restart (asked (owned (atShow .running 480 0) 56 ⟨some claim40, none, none⟩) .plantPort 0x43 []))
    t.seq.showState = .idle ∧ t.seq.resetOrigin = .restart ∧ t.plu.position = 0 ∧ t.cha.claimCount = 0 ∧
      noticed t .consolePort = [(.showState, 0, 0)] := by decide +kernel

/-- R192, R194: the defaults of the tables after a cold reset. -/
theorem test_defaults :
    let t := went (exec .coldReset (cued (armed 40) 21 twoCues (.level 5)))
    t.tables.limits.startLevel = 9600 ∧ t.tables.limits.fadeTime = 3000 ∧ t.tables.pumps[(15 : Pump)].prated = 55000 ∧
      t.tables.slots[(25 : Slot)] = none ∧ t.mpShow.transaction = none := by decide +kernel

theorem witness_RestartAbandonsTheShow :
    (asked (atShow .running 5 0) .plantPort 0x43 []).InExecution .plantPort 0x43 0x55 [] := asked_inExecution ..

end Sys2Proof.Tests
end

section
namespace Sys2Proof.Machine

/-! ## What a command can write -/

section frame

variable {s t u : State} {v w : List Part} {p : Port} {kind : Byte}

/-- The state that a command gives differs from the one before it where the state that its row computes does. -/
theorem State.Within.of_next (h : (.next u : Host.Outcome State Fault Refusal) = .next t) (k : s.Within w u) :
    s.Within w t := Host.Outcome.next.inj h ▸ k

theorem State.Within.of_eq (h : t = s) : s.Within w t := h ▸ .refl w s

/-- A command that changes nothing unless its event has come. -/
theorem State.Within.when {c : Prop} [Decidable c] (h : s.Within w t) : s.Within w (if c then t else s) := .ite h (.refl ..)

/-- A command that serves a request writes what the owning block writes, and the port. -/
theorem State.Within.of_served {mine : List Byte → Bool} {take : List Byte → State → Reply}
    (h : (.next (s.serveWhen p kind mine take) : Host.Outcome State Fault Refusal) = .next t)
    (k : ∀ body, s.Within v (take body s).1) (sub : ∀ a ∈ portPart p :: v, a ∈ w) : s.Within w t :=
  .of_next h ((s.serveWhen_within p kind mine k).mono sub)

/-- A command that serves a request without a body. -/
theorem State.Within.of_bodiless {take : State → Reply}
    (h : (.next (s.serve p kind (bodiless take)) : Host.Outcome State Fault Refusal) = .next t)
    (k : s.Within v (take s).1) (sub : ∀ a ∈ portPart p :: v, a ∈ w) : s.Within w t :=
  .of_served h (fun body => bodiless_within s k body) sub

theorem State.coldReset_within : s.Within (writes .coldReset) s.coldReset := by
  refine ⟨fun a ha => ?_⟩
  cases a
  case pending => rfl
  all_goals exact absurd (by decide) ha

/-- The state that a command gives differs from the one before it only in the parts that the command's row of `writes` lists. -/
theorem exec_within {c : Instr} (h : exec c s = .next t) : s.Within (writes c) t := by
  cases c with
  | coldReset => exact .of_next h State.coldReset_within
  | transactionStart p => exact .of_next h (.ite (.refl ..) (State.withPort_within ..))
  | transactionEnd p bs => exact .of_next h (State.withPort_within ..)
  | requestDispatch p => exact .of_next h (s.dispatch_within p)
  | status p => exact .of_bodiless h (.refl [] s) (by cases p <;> decide)
  | notices p => exact .of_bodiless h (noticesRequest_within p s) (by cases p <;> decide)
  | readChannel p => exact .of_served (v := []) h (fun b => .of_eq (readChannelRequest_same s b)) (by cases p <;> decide)
  | readDrive p => exact .of_served (v := []) h (fun b => .of_eq (readDriveRequest_same s b)) (by cases p <;> decide)
  | arm => exact .of_served h (armRequest_within s) (by decide)
  | start => exact .of_bodiless h (startRequest_within s) (by decide)
  | pause p => exact .of_bodiless h (pauseRequest_within s) (by cases p <;> decide)
  | resume p => exact .of_bodiless h (resumeRequest_within s) (by cases p <;> decide)
  | stop p => exact .of_bodiless h (stopRequest_within s) (by cases p <;> decide)
  | cueLoad => exact .of_served h (cueLoadRequest_within s) (by decide)
  | cueClear => exact .of_served h (cueClearRequest_within s) (by decide)
  | audioBlock => exact .of_served h (audioBlockRequest_within s) (by decide)
  | audioFlush => exact .of_bodiless h (audioFlushRequest_within s) (by decide)
  | volume p => exact .of_served h (volumeRequest_within s) (by cases p <;> decide)
  | claim => exact .of_served h (claimRequest_within s) (by decide)
  | set => exact .of_served h (setRequest_within s) (by decide)
  | release => exact .of_served h (releaseRequest_within s) (by decide)
  | lockout => exact .of_served h (lockoutRequest_within s) (by decide)
  | unlock => exact .of_served h (unlockRequest_within s) (by decide)
  | estop => exact .of_bodiless h (estopRequest_within s) (by decide)
  | estopReset => exact .of_bodiless h (estopResetRequest_within s) (by decide)
  | drivePowerOn => exact .of_served h (drivePowerRequest_within s) (by decide)
  | drivePowerOff => exact .of_served h (drivePowerRequest_within s) (by decide)
  | driveClear => exact .of_served h (driveClearRequest_within s) (by decide)
  | wind => exact .of_served h (windRequest_within s) (by decide)
  | level => exact .of_served h (levelRequest_within s) (by decide)
  | budget => exact .of_served h (budgetRequest_within s) (by decide)
  | configOpen => exact .of_served h (configOpenRequest_within s) (by decide)
  | configWrite => exact .of_served h (configWriteRequest_within s) (by decide)
  | configCommit => exact .of_bodiless h (configCommitRequest_within s) (by decide)
  | restart => exact .of_bodiless h s.restarted_within (by decide)
  | outputFrameEvent => exact .of_next h (s.settleSeq_within.next (State.outputFrame_within _) (by simp [writes]))
  | starvationHold => exact .of_next h (.when (s.holdFor_within _))
  | endOfShow => exact .of_next h (.when (s.fadeOut_within _))
  | fadeEnd => exact .of_next h (.when s.endFade_within)
  | startDeadlineExpiry => exact .of_next h (.when s.startTimeout_within)
  | slotExpiry => exact .of_next h (.when s.slotExpiry_within)
  | channelEvaluation ch => exact .of_next h (s.askShown_within ch)
  | outputSelection ch => exact .of_next h (s.askSelected_within ch)
  | commandComputation i =>
    refine .of_next h ?_
    split
    · exact (State.computeCommand_within ..).next (State.withGather_within ..) (by simp [writes])
    · exact .refl ..
  | valveAnswer j =>
    refine .of_next h ?_
    split
    · exact State.withGather_within ..
    · exact .refl ..
  | fixtureRendering f =>
    refine .of_next h ?_
    split
    · exact State.withGather_within ..
    · exact .refl ..
  | frameHandover l =>
    refine .of_next h ?_
    split
    · exact .when ((State.handGroup_within ..).mono (by simp [writes]))
    · exact .when ((State.handNull_within ..).mono (by simp [writes]))
    all_goals exact .refl ..
  | frameEnd l =>
    refine .of_next h (.ite (.refl ..) ?_)
    split
    · exact State.withLine_within ..
    all_goals exact .refl ..
  | exchangeCompletion window =>
    refine .of_next h ?_
    split
    · exact (State.completeExchange_within ..).next (State.withLine_within ..) (by simp [writes])
    all_goals exact .refl ..
  | powerDeadlineExpiry i => exact .of_next h (.when ((State.powerTimeout_within ..).mono (by simp [writes])))
  | leaseExpiry ch =>
    refine .of_next h ?_
    split
    · exact State.expireLease_within ..
    · exact .refl ..
  | windDeadlineExpiry => exact .of_next h (.when s.windGoesStale_within)
  | levelDeadlineExpiry => exact .of_next h (.when s.levelGoesStale_within)
  | estopNChange low => exact .of_next h (s.rawChange_within low)
  | debounceDeadlineExpiry => exact .of_next h (.when s.takeLine_within)
  | resetNRelease => exact .of_next h s.release_within

end frame

end Sys2Proof.Machine
end

section
namespace Sys2Proof.Machine

/-! ## SHOW_STATE on a port (R5, R181) -/

/-- A port tells of a change of the show at position `n`: its list holds SHOW_STATE with subject 0 and that position, or the notice found
the list full. -/
def MasterPort.ShowNoticed (m : MasterPort) (n : Nat) : Prop :=
  (m.dropped = true ∧ 32 ≤ m.notices.length) ∨ ∃ x ∈ m.notices, x.kind = .showState ∧ x.subject = 0 ∧ x.detail = n

theorem MasterPort.place_showNoticed (m : MasterPort) (n : Nat) (time : Time) :
    (m.place ⟨.showState, 0, n, time⟩).ShowNoticed n := by
  unfold MasterPort.place
  split
  · rename_i same
    obtain ⟨y, hy, key⟩ := List.any_eq_true.mp same
    exact .inr ⟨⟨.showState, 0, n, time⟩, List.mem_map.mpr ⟨y, hy, if_pos key⟩, rfl, rfl, rfl⟩
  · split
    · exact .inr ⟨⟨.showState, 0, n, time⟩, by simp, rfl, rfl, rfl⟩
    · rename_i full
      exact .inl ⟨rfl, Nat.le_of_not_lt full⟩

/-- A notice of another kind neither takes the place of SHOW_STATE nor makes room on a full list. -/
theorem MasterPort.ShowNoticed.place {m : MasterPort} {n : Nat} (h : m.ShowNoticed n) {x : Notice} (other : x.kind ≠ .showState) :
    (m.place x).ShowNoticed n := by
  unfold MasterPort.place
  split
  · rcases h with ⟨dropped, full⟩ | ⟨y, hy, kind, rest⟩
    · exact .inl ⟨dropped, by simpa using full⟩
    · refine .inr ⟨y, List.mem_map.mpr ⟨y, hy, if_neg ?_⟩, kind, rest⟩
      simp [Notice.sameKey, kind, other]
  · split
    · rename_i room
      rcases h with ⟨-, full⟩ | ⟨y, hy, shown⟩
      · exact absurd room (Nat.not_lt.mpr full)
      · exact .inr ⟨y, by simp [hy], shown⟩
    · rename_i full
      exact .inl ⟨rfl, Nat.le_of_not_lt full⟩

/-! ## Operations that leave the show as it is -/

/-- The two states hold the same sequencer record, configuration state and show position, and no port has lost a SHOW_STATE notice. -/
structure State.SameShow (s t : State) : Prop where
  seq : t.seq = s.seq
  config : t.cfg.state = s.cfg.state
  position : t.plu.position = s.plu.position
  noticed : ∀ p n, (s.port p).ShowNoticed n → (t.port p).ShowNoticed n

section sameShow

variable {s t u : State}

theorem State.SameShow.refl (s : State) : s.SameShow s := ⟨rfl, rfl, rfl, fun _ _ h => h⟩

theorem State.SameShow.next (h : s.SameShow t) (k : t.SameShow u) : s.SameShow u :=
  ⟨k.seq.trans h.seq, k.config.trans h.config, k.position.trans h.position, fun p n x => k.noticed p n (h.noticed p n x)⟩

theorem State.SameShow.of_ports (seq : t.seq = s.seq) (config : t.cfg.state = s.cfg.state)
    (position : t.plu.position = s.plu.position) (ports : ∀ p, t.port p = s.port p) : s.SameShow t :=
  ⟨seq, config, position, fun p _ h => (ports p).symm ▸ h⟩

theorem State.SameShow.foldl {α : Type} {f : State → α → State} (h : ∀ (s : State) a, s.SameShow (f s a)) (l : List α)
    (s : State) : s.SameShow (l.foldl f s) := by
  induction l generalizing s with
  | nil => exact .refl s
  | cons a l ih => exact (h s a).next (ih _)

theorem State.raise_sameShow {k : NoticeKind} (other : k ≠ .showState) (s : State) (subject detail : Nat) :
    s.SameShow (s.raise k subject detail) := by
  refine ⟨rfl, rfl, rfl, fun p n h => ?_⟩
  rw [State.raise_port]
  split
  · exact h.place other
  · exact h

variable (s)

theorem State.withCst_sameShow (x : Cst) : s.SameShow (s.withCst x) := .of_ports rfl rfl rfl (by simp)

theorem State.withCha_sameShow (x : Cha) : s.SameShow (s.withCha x) := .of_ports rfl rfl rfl (by simp)

theorem State.withFsc_sameShow (x : Fsc) : s.SameShow (s.withFsc x) := .of_ports rfl rfl rfl (by simp)

theorem State.withPlm_sameShow (x : Plm) : s.SameShow (s.withPlm x) := .of_ports rfl rfl rfl (by simp)

theorem State.withCfg_sameShow {x : Cfg} (h : x.state = s.cfg.state) : s.SameShow (s.withCfg x) := .of_ports rfl h rfl (by simp)

theorem State.withPlu_sameShow {x : Plu} (h : x.position = s.plu.position) : s.SameShow (s.withPlu x) :=
  .of_ports rfl rfl h (by simp)

theorem State.poolLowTest_sameShow : s.SameShow s.poolLowTest := by
  unfold State.poolLowTest
  split
  · exact (s.withCst_sameShow _).next (State.raise_sameShow (by decide) ..)
  · split
    · exact s.withCst_sameShow _
    · exact .refl s

theorem State.lowMarkTest_sameShow : s.SameShow s.lowMarkTest := by
  unfold State.lowMarkTest
  split
  · exact (s.withPlu_sameShow (by rfl)).next (State.raise_sameShow (by decide) ..)
  · exact .refl s

theorem State.lowMarkRearm_sameShow : s.SameShow s.lowMarkRearm := by
  unfold State.lowMarkRearm
  split
  · exact s.withPlu_sameShow (by rfl)
  · exact .refl s

theorem State.flushAudio_sameShow : s.SameShow s.flushAudio := s.withPlu_sameShow (by rfl)

theorem State.installCues_sameShow (o : Origin) (d : Nat) (k : Curve) : s.SameShow (s.installCues o d k) :=
  (s.withCst_sameShow _).next (State.poolLowTest_sameShow _)

theorem State.chaEstop_sameShow : s.SameShow s.chaEstop :=
  (s.withCha_sameShow _ : s.SameShow s.dropClaims).next (.foldl (fun _ _ => State.raise_sameShow (by decide) ..) _ _)

theorem State.answer_sameShow (p : Port) (q : Request) (r : Result) (body : List Byte) : s.SameShow (s.answer p q r body) := by
  refine ⟨by simp, by simp, by simp, fun o n h => ?_⟩
  by_cases e : o = p
  · subst e; rw [State.answer_port_self]; exact h
  · rw [State.answer_port_other _ _ _ _ _ e]; exact h

end sameShow

/-! ## The whole operations of the configuration store, field by field -/

section configuration

variable (s : State)

/-- The installation of a commit before SEQ's part (R191). -/
def State.tablesInstalled (s : State) : State :=
  let a := (s.withCfg { s.cfg with state := .valid }).withTables s.cfg.held
  ((a.withFsc { a.fsc with pointer := 0 }).recomputeShares.updateAllowed.budgetTest).clearCues.restShown.poolLowTest

theorem State.install_eq : s.install = s.tablesInstalled.seqCommit := rfl

@[simp] theorem State.tablesInstalled_seq : s.tablesInstalled.seq = s.seq := by
  simp [State.tablesInstalled, State.clearCues, State.restShown, State.updateAllowed, State.recomputeShares]
@[simp] theorem State.tablesInstalled_plu : s.tablesInstalled.plu = s.plu := by
  simp [State.tablesInstalled, State.clearCues, State.restShown, State.updateAllowed, State.recomputeShares]
@[simp] theorem State.tablesInstalled_cfg : s.tablesInstalled.cfg = ⟨.valid, s.cfg.held⟩ := by
  simp [State.tablesInstalled, State.clearCues, State.restShown, State.updateAllowed, State.recomputeShares]

@[simp] theorem State.restarted_seq : s.restarted.seq = Seq.restarted (s.cfg.state = .valid) := rfl
@[simp] theorem State.restarted_cfg : s.restarted.cfg = s.cfg := rfl

/-- RESTART clears every notice list and then raises SHOW_STATE with detail 0 (R186, R193). -/
theorem State.restarted_port (p : Port) :
    s.restarted.port p = (s.port p).clearNotices.place ⟨.showState, 0, 0, s.clock.now⟩ := by cases p <;> rfl

end configuration

/-! ## The sequencer record (R4, R18) -/

/-- A sequencer record has the fields of its show state, and fits the configuration state (`State.RecordLaw`, for any record). -/
def Seq.Fits (q : Seq) (c : ConfigState) : Prop :=
  (q.holdCause.isSome = true ↔ q.showState = .hold) ∧
  (q.startDeadline.isSome = true → q.showState = .armed) ∧
  (q.fadeEnd.isSome = true ↔ q.showState = .fading) ∧
  (q.fadeCause.isSome = true ↔ q.showState = .fading) ∧
  (q.showState = .idle ∨ q.showState = .unconfigured → q.endPosition = none ∧ q.silent = false) ∧
  (q.showState = .unconfigured ↔ c ≠ .valid)

theorem State.recordLaw_iff (s : State) : s.RecordLaw ↔ s.seq.Fits s.cfg.state := Iff.rfl

theorem Seq.become_fits (old q : Seq) (c : ConfigState) : (old.become q).Fits c ↔ q.Fits c := by simp [Seq.Fits]

theorem Seq.become_shownFields (old q : Seq) : (old.become q).shownFields = q.shownFields := by simp [Seq.shownFields]

end Sys2Proof.Machine
end

section
namespace Sys2Proof.Machine

/-! ## What a command can do to the show (R3, R4, R5) -/

/-- `t` comes after `s` with the show at position `n`: the record still has the fields of its show state, and a change of the three
fields of R5 has been told to every port with that position. -/
structure State.Follows (n : Nat) (s t : State) : Prop where
  position : t.plu.position = n
  record : s.RecordLaw → t.RecordLaw
  announced : t.seq.shownFields = s.seq.shownFields ∨ ∀ p, (t.port p).ShowNoticed n

section follows

variable {n : Nat} {s t u : State}

theorem State.SameShow.follows (h : s.SameShow t) : s.Follows s.plu.position t where
  position := h.position
  record := by rw [State.recordLaw_iff, State.recordLaw_iff, h.seq, h.config]; exact id
  announced := .inl (by rw [h.seq])

/-- What comes after a change of the show and leaves the show as it is belongs to that change. -/
theorem State.Follows.next (h : s.Follows n t) (k : t.SameShow u) : s.Follows n u where
  position := k.position.trans h.position
  record := k.follows.record ∘ h.record
  announced := by rw [k.seq]; exact h.announced.imp_right fun noticed p => k.noticed p n (noticed p)

/-- A change of the show sees of the state before it only the record and the configuration state. -/
theorem State.Follows.of_start (h : u.Follows n t) (seq : u.seq = s.seq) (config : u.cfg.state = s.cfg.state) : s.Follows n t where
  position := h.position
  record := by rw [State.recordLaw_iff s, ← seq, ← config]; exact h.record
  announced := by rw [← seq]; exact h.announced

/-- A request served changes the show as its owning block does. -/
theorem State.serve_follows {p : Port} {kind : Byte} {take : List Byte → State → Reply}
    (h : ∀ body, s.Follows s.plu.position (take body s).1) : s.Follows s.plu.position (s.serve p kind take) :=
  State.serveWhen_keeps (P := s.Follows s.plu.position) (State.SameShow.refl s).follows fun _ _ _ _ =>
    (h _).next (State.answer_sameShow ..)

theorem bodiless_follows {take : State → Reply} (h : s.Follows s.plu.position (take s).1) (body : List Byte) :
    s.Follows s.plu.position (bodiless take body s).1 := by
  unfold bodiless
  split
  · exact h
  · exact (State.SameShow.refl s).follows

theorem State.Follows.when {c : Prop} [Decidable c] (h : c → s.Follows s.plu.position t) :
    s.Follows s.plu.position (if c then t else s) := by
  split
  · exact h ‹_›
  · exact (State.SameShow.refl s).follows

/-- SEQ takes a record that has the fields of its show state. What the other blocks have done before, this change does not see. -/
theorem State.seqTake_follows_of {q : Seq} (seq : u.seq = s.seq) (position : u.plu.position = n)
    (h : s.RecordLaw → q.Fits u.cfg.state) : s.Follows n (u.seqTake q) where
  position := (u.seqTake_position q).trans position
  record law := by
    rw [State.recordLaw_iff, State.seqTake_seq, Seq.become_fits, State.seqTake_cfg]
    exact h law
  announced := by
    rw [State.seqTake_seq, Seq.become_shownFields, ← seq]
    by_cases e : q.shownFields = u.seq.shownFields
    · exact .inl e
    · exact .inr fun p => by rw [State.seqTake_port, if_neg e, position]; exact MasterPort.place_showNoticed ..

variable (s)

theorem State.seqTake_follows {q : Seq} (h : s.RecordLaw → q.Fits s.cfg.state) : s.Follows s.plu.position (s.seqTake q) :=
  State.seqTake_follows_of rfl rfl h

/-- SEQ writes fields that raise no SHOW_STATE. -/
theorem State.withSeq_follows {q : Seq} (shown : q.shownFields = s.seq.shownFields) (h : s.RecordLaw → q.Fits s.cfg.state) :
    s.Follows s.plu.position (s.withSeq q) := ⟨rfl, h, .inl shown⟩

/-! ### SEQ's operations -/

theorem State.run_follows (h : s.seq.showState = .armed ∨ s.seq.showState = .hold) : s.Follows s.plu.position s.run := by
  refine s.seqTake_follows fun law => ?_
  rcases h with h | h <;> simp_all [State.recordLaw_iff, Seq.Fits]

theorem State.holdFor_follows (c : HoldCause) (h : s.seq.showState = .running ∨ s.seq.showState = .hold) :
    s.Follows s.plu.position (s.holdFor c) := by
  refine s.seqTake_follows fun law => ?_
  rcases h with h | h <;> simp_all [State.recordLaw_iff, Seq.Fits]

theorem State.fadeOut_follows (c : FadeCause)
    (h : s.seq.showState = .armed ∨ s.seq.showState = .running ∨ s.seq.showState = .hold) :
    s.Follows s.plu.position (s.fadeOut c) := by
  have start : s.SameShow s.installFade.flushAudio := (s.installCues_sameShow ..).next (State.flushAudio_sameShow _)
  refine State.seqTake_follows_of start.seq start.position fun law => ?_
  rw [start.config]
  rcases h with h | h | h <;> simp_all [State.recordLaw_iff, Seq.Fits]

theorem Seq.idleWith_fits {q : Seq} {c : ConfigState} (h : q.Fits c) (configured : q.showState ≠ .unconfigured) (k : IdleCause) :
    (q.idleWith k).Fits c := by simp_all [Seq.Fits, Seq.idleWith]

theorem State.endFade_follows (h : s.seq.showState = .fading) : s.Follows s.plu.position s.endFade :=
  s.seqTake_follows fun law => Seq.idleWith_fits law (by simp [h]) _

theorem State.settleSeq_follows : s.Follows s.plu.position s.settleSeq := by
  unfold State.settleSeq State.fadeDue State.endDue State.holdDue
  split
  · exact s.endFade_follows (by simp_all)
  · split
    · exact s.fadeOut_follows _ (by simp_all)
    · exact .when fun due => s.holdFor_follows _ (by simp_all)

theorem State.startTimeout_follows : s.Follows s.plu.position s.startTimeout := by
  refine (s.withSeq_follows (q := { s.seq with startDeadline := none }) rfl fun law => ?_).next (State.raise_sameShow (by decide) ..)
  simp_all [State.recordLaw_iff, Seq.Fits]

theorem State.reportLead_follows : s.Follows s.plu.position s.reportLead := by
  unfold State.reportLead
  split
  · exact s.run_follows (by simp_all)
  · exact .when fun starved => s.run_follows (by simp_all)

theorem State.queueBlock_follows (b : AudioBlock) : s.Follows s.plu.position (s.queueBlock b) := by
  have start : s.SameShow (s.withPlu { s.plu with queue := s.plu.queue ++ [b] }).lowMarkRearm :=
    (s.withPlu_sameShow (by rfl)).next (State.lowMarkRearm_sameShow _)
  rw [← start.position]
  exact (State.reportLead_follows _).of_start start.seq start.config

theorem State.seqEstop_follows : s.Follows s.plu.position s.seqEstop := by
  unfold State.seqEstop
  split
  · exact (State.SameShow.refl s).follows
  · exact s.seqTake_follows fun law => Seq.idleWith_fits law ‹_› _

theorem State.seqEstop_follows_of {s u : State} {n : Nat} (seq : u.seq = s.seq) (config : u.cfg.state = s.cfg.state)
    (position : u.plu.position = n) : s.Follows n u.seqEstop := (position ▸ u.seqEstop_follows).of_start seq config

theorem State.enterStop_follows (c : EntryCause) : s.Follows s.plu.position (s.enterStop c) := by
  unfold State.enterStop
  simp only
  refine State.Follows.next ?_ (State.chaEstop_sameShow _)
  refine State.Follows.next ?_ (State.flushAudio_sameShow _)
  refine State.Follows.next ?_ (State.installCues_sameShow ..)
  exact State.seqEstop_follows_of rfl rfl rfl

theorem State.leaveStop_sameShow (e : StopEntry) : s.SameShow (s.leaveStop e) := by
  unfold State.leaveStop
  simp only
  refine State.SameShow.next ?_ (State.withFsc_sameShow ..)
  refine State.SameShow.next ?_ (State.withCha_sameShow ..)
  exact (s.withPlm_sameShow _).next (State.raise_sameShow (by decide) ..)

theorem State.judgeStop_follows (c : EntryCause) : s.Follows s.plu.position (s.judgeStop c) := by
  unfold State.judgeStop
  split
  · exact .when fun _ => s.enterStop_follows c
  · split
    · exact (State.SameShow.refl s).follows
    · exact (s.leaveStop_sameShow _).follows

/-- A change of PLM's record, judged by R163. -/
theorem State.withPlm_judgeStop_follows (x : Plm) (c : EntryCause) : s.Follows s.plu.position ((s.withPlm x).judgeStop c) :=
  (State.judgeStop_follows (s.withPlm x) c).of_start rfl rfl

theorem State.takeArm_follows (ms : Nat) (e : Option Nat) (silent : Bool) (h : s.seq.showState = .idle) :
    s.Follows (ms * Config.framesPerMs) (s.takeArm ms e silent) := by
  unfold State.takeArm
  simp only
  have frame := State.armPowerOn_within (s.withPlu { s.plu with position := ms * Config.framesPerMs, queue := [], starvation := 0 })
  generalize State.armPowerOn _ = u at frame
  have config : u.cfg = s.cfg := frame.same .cfg (by decide)
  refine State.seqTake_follows_of (frame.same .seq (by decide)) (congrArg Plu.position (frame.same .plu (by decide))) fun law => ?_
  rw [config]
  simp_all [State.recordLaw_iff, Seq.Fits]

/-! ### Requests -/

theorem startRequest_follows : s.Follows s.plu.position (startRequest s).1 := by
  have same := (State.SameShow.refl s).follows
  unfold startRequest refuse
  split
  · rename_i armed
    split
    · exact same
    · split
      · exact s.run_follows (.inl armed)
      · refine s.withSeq_follows rfl fun law => ?_
        simp_all [State.recordLaw_iff, Seq.Fits]
  all_goals split <;> exact same

theorem pauseRequest_follows : s.Follows s.plu.position (pauseRequest s).1 := by
  unfold pauseRequest refuse
  split
  · exact s.holdFor_follows _ (.inl ‹_›)
  · exact s.holdFor_follows _ (.inr ‹_›)
  all_goals exact (State.SameShow.refl s).follows

theorem resumeRequest_follows : s.Follows s.plu.position (resumeRequest s).1 := by
  have same := (State.SameShow.refl s).follows
  unfold resumeRequest refuse
  split
  · rename_i hold
    split
    · split
      · exact s.run_follows (.inr hold)
      · exact s.holdFor_follows _ (.inr hold)
    · exact same
  all_goals exact same

theorem stopRequest_follows : s.Follows s.plu.position (stopRequest s).1 := by
  have same := (State.SameShow.refl s).follows
  unfold stopRequest refuse
  split
  · exact same
  · exact same
  · exact s.fadeOut_follows _ (by simp_all)
  · exact s.fadeOut_follows _ (by simp_all)
  · exact s.fadeOut_follows _ (by simp_all)
  · refine s.withSeq_follows rfl fun law => ?_
    simp_all [State.recordLaw_iff, Seq.Fits]

theorem audioBlockRequest_follows (body : List Byte) : s.Follows s.plu.position (audioBlockRequest body s).1 := by
  have same := (State.SameShow.refl s).follows
  have judged : s.Follows s.plu.position (s.judgeBlock (blockOf body)).1 := by
    unfold State.judgeBlock
    simp only
    split
    · exact same
    · split
      · exact same
      · split <;> exact s.queueBlock_follows _
  unfold audioBlockRequest
  split
  · exact same
  · split
    · exact same
    · split
      · exact same
      · exact same
      · exact same
      all_goals exact judged

theorem audioFlushRequest_follows : s.Follows s.plu.position (audioFlushRequest s).1 :=
  (s.flushAudio_sameShow.next (State.lowMarkTest_sameShow _)).follows

theorem volumeRequest_follows (body : List Byte) : s.Follows s.plu.position (volumeRequest body s).1 := by
  unfold volumeRequest refuse
  split
  · exact (State.SameShow.refl s).follows
  · exact (s.withPlu_sameShow (by rfl)).follows

/-- An accepted CONFIG_OPEN takes the show out of IDLE or UNCONFIGURED (R18, R188). -/
theorem State.openConfig_follows (x : Tables) (h : s.seq.showState = .idle ∨ s.seq.showState = .unconfigured) :
    s.Follows s.plu.position (s.withCfg ⟨.opened, x⟩).seqOpen := by
  refine State.seqTake_follows_of (u := s.withCfg ⟨.opened, x⟩) rfl rfl fun law => ?_
  rcases h with h | h <;> simp_all [State.recordLaw_iff, Seq.Fits]

theorem configOpenRequest_follows (body : List Byte) : s.Follows s.plu.position (configOpenRequest body s).1 := by
  have same := (State.SameShow.refl s).follows
  unfold configOpenRequest
  split
  · exact same
  split
  · exact same
  split
  · exact same
  · split
    · exact same
    · exact s.openConfig_follows _ (by grind)

theorem configWriteRequest_follows (body : List Byte) : s.Follows s.plu.position (configWriteRequest body s).1 := by
  have same := (State.SameShow.refl s).follows
  unfold configWriteRequest refuse
  split
  · exact same
  · split
    · exact (s.withCfg_sameShow (by rfl)).follows
    · exact same

/-- A successful commit takes the show from UNCONFIGURED to IDLE (R18, R191). -/
theorem State.install_follows (h : s.cfg.state = .opened) : s.Follows s.plu.position s.install := by
  rw [State.install_eq]
  refine State.seqTake_follows_of s.tablesInstalled_seq (by simp) fun ⟨hold, deadline, fadeEnd, fadeCause, idle, configured⟩ => ?_
  have unconfigured : s.seq.showState = .unconfigured := configured.mpr (by simp [h])
  simp_all [Seq.Fits]

theorem configCommitRequest_follows : s.Follows s.plu.position (configCommitRequest s).1 := by
  have same := (State.SameShow.refl s).follows
  unfold configCommitRequest refuse
  split
  · exact same
  · split
    · exact same
    · exact s.install_follows (by simp_all)

/-- RESTART leaves IDLE with a VALID configuration and UNCONFIGURED without one (R19). -/
theorem State.restarted_follows : s.Follows 0 s.restarted := by
  refine ⟨rfl, fun _ => ?_, .inr fun p => ?_⟩
  · rw [State.recordLaw_iff, State.restarted_seq, State.restarted_cfg]
    by_cases valid : s.cfg.state = .valid <;> simp [Seq.Fits, Seq.restarted, Seq.cold, valid]
  · rw [State.restarted_port]
    exact MasterPort.place_showNoticed ..

/-! ### The output frame event (R3, R31) -/

theorem State.outputFrame_shownFields : s.outputFrame.seq.shownFields = s.seq.shownFields := by
  unfold State.outputFrame
  simp only
  split
  · rw [State.lowMarkTest_seq]; rfl
  · rfl

theorem State.outputFrame_recordLaw (law : s.RecordLaw) : s.outputFrame.RecordLaw := by
  unfold State.outputFrame
  simp only
  split
  · rw [State.recordLaw_iff, State.lowMarkTest_seq, State.lowMarkTest_cfg]; exact law
  · exact law

theorem State.outputFrame_noticed {p : Port} {n : Nat} (h : (s.port p).ShowNoticed n) : (s.outputFrame.port p).ShowNoticed n := by
  unfold State.outputFrame
  simp only
  split
  · exact (State.lowMarkTest_sameShow _).noticed p n (by simpa using h)
  · simpa using h

/-- The show clock advances by one frame while it runs (R3). -/
theorem State.outputFrame_position :
    s.outputFrame.plu.position = if s.clockRuns = true then s.plu.position + 1 else s.plu.position := by
  unfold State.outputFrame
  simp only
  split
  · rw [State.lowMarkTest_position]; rfl
  · rfl

/-- No event of SEQ that a frame takes first sets a standing clock running. -/
theorem State.clockRuns_of_settleSeq (h : s.settleSeq.clockRuns = true) : s.clockRuns = true := by
  unfold State.settleSeq State.fadeDue State.endDue State.holdDue at h
  unfold State.clockRuns at h ⊢
  split at h
  · simp_all
  · split at h
    · simp_all
    · split at h <;> simp_all

/-! ### Every command -/

/-- Where a command can put the show: where it stands, with ARM at a start time of the day, with RESTART at 0 (R3). -/
def PutsShowAt (c : Instr) (s : State) (n : Nat) : Prop :=
  n = s.plu.position ∨ (c = .arm ∧ ∃ ms ≤ Config.lastShowMs, n = ms * Config.framesPerMs) ∨ (c = .restart ∧ n = 0)

theorem armStartMs_le (body : List Byte) : armStartMs body ≤ Config.lastShowMs := by
  unfold armStartMs
  exact min_le_right _ _

theorem armRequest_follows (body : List Byte) : ∃ n, PutsShowAt .arm s n ∧ s.Follows n (armRequest body s).1 := by
  have same : ∃ n, PutsShowAt .arm s n ∧ s.Follows n s := ⟨_, .inl rfl, (State.SameShow.refl s).follows⟩
  unfold armRequest refuse
  split
  · exact same
  split
  · exact same
  split
  all_goals try exact same
  rename_i idle
  split
  · exact same
  · refine ⟨armStartMs body * Config.framesPerMs, .inr (.inl ⟨rfl, armStartMs body, armStartMs_le body, rfl⟩), ?_⟩
    dsimp only
    exact s.takeArm_follows _ _ _ idle

theorem restartRequest_follows (body : List Byte) :
    ∃ n, PutsShowAt .restart s n ∧ s.Follows n (bodiless restartRequest body s).1 := by
  unfold bodiless
  split
  · exact ⟨0, .inr (.inr ⟨rfl, rfl⟩), s.restarted_follows⟩
  · exact ⟨_, .inl rfl, (State.SameShow.refl s).follows⟩

variable {s}

/-- A command that does not write SEQ, PLU and CFG leaves the show as it is. -/
theorem exec_follows_of_frame {c : Instr} (h : exec c s = .next t)
    (frame : Part.seq ∉ writes c ∧ Part.plu ∉ writes c ∧ Part.cfg ∉ writes c) : s.Follows s.plu.position t := by
  obtain ⟨seq, plu, cfg⟩ := frame
  have within := exec_within h
  have same : t.seq = s.seq := within.same .seq seq
  refine ⟨congrArg Plu.position (within.same .plu plu), ?_, .inl (by rw [same])⟩
  rw [State.recordLaw_iff, State.recordLaw_iff, same, show t.cfg = s.cfg from within.same .cfg cfg]
  exact id

theorem State.Follows.served {c : Instr} {p : Port} {kind : Byte} {take : List Byte → State → Reply}
    (h : (.next (s.serve p kind take) : Host.Outcome State Fault Refusal) = .next t)
    (k : ∀ body, ∃ n, PutsShowAt c s n ∧ s.Follows n (take body s).1) : ∃ n, PutsShowAt c s n ∧ s.Follows n t := by
  obtain rfl := Host.Outcome.next.inj h
  refine State.serveWhen_keeps (P := fun t => ∃ n, PutsShowAt c s n ∧ s.Follows n t)
    ⟨_, .inl rfl, (State.SameShow.refl s).follows⟩ ?_
  intro x _ _ _
  obtain ⟨n, at_, follows⟩ := k x.request.body
  exact ⟨n, at_, follows.next (State.answer_sameShow ..)⟩

theorem portPart_ne (p : Port) : Part.seq ≠ portPart p ∧ Part.plu ≠ portPart p ∧ Part.cfg ≠ portPart p := by
  cases p <;> decide

/-- Every command but cold reset and the output frame event takes the show to where its rule puts it, keeps the record consistent and
tells every port of a change. -/
theorem exec_follows {c : Instr} (h : exec c s = .next t) (cold : c ≠ .coldReset) (frame : c ≠ .outputFrameEvent) :
    ∃ n, PutsShowAt c s n ∧ s.Follows n t := by
  by_cases other : Part.seq ∉ writes c ∧ Part.plu ∉ writes c ∧ Part.cfg ∉ writes c
  · exact ⟨_, .inl rfl, exec_follows_of_frame h other⟩
  have stays {u : State} (e : (.next u : Host.Outcome State Fault Refusal) = .next t) (k : s.Follows s.plu.position u) :
      ∃ n, PutsShowAt c s n ∧ s.Follows n t := ⟨_, .inl rfl, Host.Outcome.next.inj e ▸ k⟩
  cases c with
  | arm => exact State.Follows.served h (armRequest_follows s)
  | restart => exact State.Follows.served h (restartRequest_follows s)
  | start => exact stays h (State.serve_follows (bodiless_follows (startRequest_follows s)))
  | pause p => exact stays h (State.serve_follows (bodiless_follows (pauseRequest_follows s)))
  | resume p => exact stays h (State.serve_follows (bodiless_follows (resumeRequest_follows s)))
  | stop p => exact stays h (State.serve_follows (bodiless_follows (stopRequest_follows s)))
  | audioBlock => exact stays h (State.serve_follows (audioBlockRequest_follows s))
  | audioFlush => exact stays h (State.serve_follows (bodiless_follows (audioFlushRequest_follows s)))
  | volume p => exact stays h (State.serve_follows (volumeRequest_follows s))
  | estop => exact stays h (State.serve_follows (bodiless_follows (s.withPlm_judgeStop_follows _ _)))
  | estopReset => exact stays h (State.serve_follows (bodiless_follows (s.withPlm_judgeStop_follows _ _)))
  | configOpen => exact stays h (State.serve_follows (configOpenRequest_follows s))
  | configWrite => exact stays h (State.serve_follows (configWriteRequest_follows s))
  | configCommit => exact stays h (State.serve_follows (bodiless_follows (configCommitRequest_follows s)))
  | starvationHold =>
    exact stays h (.when fun due => s.holdFor_follows _ (by simp_all [State.holdDue]))
  | endOfShow => exact stays h (.when fun due => s.fadeOut_follows _ (by simp_all [State.endDue]))
  | fadeEnd => exact stays h (.when fun due => s.endFade_follows (by simp_all [State.fadeDue]))
  | startDeadlineExpiry => exact stays h (.when fun _ => s.startTimeout_follows)
  | debounceDeadlineExpiry => exact stays h (.when fun _ => s.withPlm_judgeStop_follows _ _)
  | coldReset => exact absurd rfl cold
  | outputFrameEvent => exact absurd rfl frame
  | _ => exact absurd (by simp [writes, portPart_ne]) other

/-- The fourth law at an output frame event: one frame while the clock runs (R3). -/
theorem outputFrameEvent_position (h : exec .outputFrameEvent s = .next t) :
    t.plu.position = s.plu.position ∨ (s.clockRuns = true ∧ t.plu.position = s.plu.position + 1) := by
  obtain rfl := Host.Outcome.next.inj h
  rw [State.outputFrame_position, s.settleSeq_follows.position]
  split
  · exact .inr ⟨s.clockRuns_of_settleSeq ‹_›, rfl⟩
  · exact .inl rfl

end follows

/-- Settles O19: an output frame event advances a running clock, every other command puts the show where its rule says. -/
theorem thePositionChangesInThreeWays : Obligations.ThePositionChangesInThreeWays := by
  intro c s t h moved
  by_cases frame : c = .outputFrameEvent
  · subst frame
    rcases outputFrameEvent_position h with same | ⟨runs, position⟩
    · exact absurd same moved
    · exact .inl ⟨rfl, by simpa [State.clockRuns] using runs, position⟩
  by_cases cold : c = .coldReset
  · subst cold
    obtain rfl := Host.Outcome.next.inj h
    exact .inr (.inr ⟨.inr rfl, rfl⟩)
  obtain ⟨n, at_, follows⟩ := exec_follows h cold frame
  have position := follows.position
  rcases at_ with rfl | ⟨arm, ms, bound, rfl⟩ | ⟨restart, rfl⟩
  · exact absurd position moved
  · exact .inr (.inl ⟨arm, ms, bound, position⟩)
  · exact .inr (.inr ⟨.inl restart, position⟩)

theorem Seq.shownFields_ne {q r : Seq} (h : q.showState ≠ r.showState ∨ q.holdCause ≠ r.holdCause ∨ q.idleCause ≠ r.idleCause) :
    q.shownFields ≠ r.shownFields := by
  simp only [Seq.shownFields, ne_eq, Prod.mk.injEq]
  tauto

/-- Settles O20: a change of the shown fields is announced where it is made, and no later notice of the command displaces it. -/
theorem showStateChangesAreNoticed : Obligations.ShowStateChangesAreNoticed := by
  intro c s t p cold h changed
  have changed := Seq.shownFields_ne changed
  by_cases frame : c = .outputFrameEvent
  · subst frame
    obtain rfl := Host.Outcome.next.inj h
    rw [State.outputFrame_shownFields] at changed
    rw [if_pos rfl]
    exact State.outputFrame_noticed _ (s.settleSeq_follows.announced.resolve_left changed p)
  · obtain ⟨n, -, follows⟩ := exec_follows h cold frame
    rw [if_neg frame, follows.position]
    exact follows.announced.resolve_left changed p

/-- Settles O21: every command keeps the record law, and the queue of waiting commands does not touch it. -/
theorem everyStepKeepsTheSequencerRecord : Obligations.EveryStepKeepsTheSequencerRecord := by
  intro s t law h
  refine step_keeps (P := State.RecordLaw) (fun _ _ => id) (fun c s t law h => ?_) law h
  by_cases frame : c = .outputFrameEvent
  · subst frame
    obtain rfl := Host.Outcome.next.inj h
    exact State.outputFrame_recordLaw _ (s.settleSeq_follows.record law)
  by_cases cold : c = .coldReset
  · subst cold
    obtain rfl := Host.Outcome.next.inj h
    simp [State.recordLaw_iff, Seq.Fits, State.coldReset, State.reset, Seq.cold]
  · obtain ⟨n, -, follows⟩ := exec_follows h cold frame
    exact follows.record law

end Sys2Proof.Machine
end

section
namespace Sys2Proof.Machine

/-- A request with an empty body is answered with what its owning block gives back. -/
theorem Answers.of_bodiless {c : Instr} {s t : State} {p : Port} {kind tag : Byte} {reply : List Byte} {r : Result}
    {take : State → Reply} (e : exec c s = .next (s.serve p kind (bodiless take))) (h : s.InExecution p kind tag [])
    (k : take s = (t, r, reply)) : Answers c s p kind tag [] t r reply :=
  .of_reply e h ((if_pos rfl).trans k)

/-! ## ARM (R6, R7, R135) -/

section arm

variable (s : State)

/-- A drive's record after the power-on of an accepted ARM (R135). -/
def State.poweredOn (s : State) (i : Pump) : DriveRecord :=
  if s.dlc[i].present = true ∧ s.dlc[i].power = .off ∧ s.heldOff i = false then
    { s.dlc[i] with power := .poweringUp, pending := some ⟨.powerOn, s.clock.now, .off, false⟩ }
  else s.dlc[i]

theorem State.armPowerOnFor_drive (i j : Pump) :
    (s.armPowerOnFor i).dlc[j] = if i = j then s.poweredOn j else s.dlc[j] := by
  unfold State.armPowerOnFor State.poweredOn
  simp only
  by_cases e : i = j
  · subst e
    rw [if_pos rfl]
    split
    · rw [State.changeDrive_drive, if_pos rfl]
    · rfl
  · rw [if_neg e]
    split
    · rw [State.changeDrive_drive, if_neg e]
    · rfl

/-- The power-on of one drive leaves what decides over another. -/
theorem State.armPowerOnFor_poweredOn {i j : Pump} (h : i ≠ j) : (s.armPowerOnFor i).poweredOn j = s.poweredOn j := by
  have frame := s.armPowerOnFor_within i
  have record : (s.armPowerOnFor i).dlc[j] = s.dlc[j] := by rw [State.armPowerOnFor_drive, if_neg h]
  have held : (s.armPowerOnFor i).heldOff j = s.heldOff j := by
    rw [State.heldOff, show (s.armPowerOnFor i).cha = s.cha from frame.same .cha (by decide)]; rfl
  have clock : (s.armPowerOnFor i).clock = s.clock := frame.same .clock (by decide)
  rw [State.poweredOn, record, held, clock]
  rfl

theorem State.foldl_armPowerOnFor_drive (l : List Pump) (nodup : l.Nodup) (j : Pump) :
    (l.foldl State.armPowerOnFor s).dlc[j] = if j ∈ l then s.poweredOn j else s.dlc[j] := by
  induction l generalizing s with
  | nil => simp
  | cons i l ih =>
    obtain ⟨fresh, nodup⟩ := List.nodup_cons.mp nodup
    rw [List.foldl_cons, ih _ nodup, State.armPowerOnFor_drive]
    by_cases e : i = j
    · subst e; simp [fresh]
    · rw [State.armPowerOnFor_poweredOn s e]
      simp [e, Ne.symm e]

/-- The sixteen records after an accepted ARM (R135). -/
theorem State.armPowerOn_drive (j : Pump) : s.armPowerOn.dlc[j] = s.poweredOn j := by
  simp [State.armPowerOn, State.foldl_armPowerOnFor_drive s _ (List.nodup_finRange 16)]

@[simp] theorem State.armPowerOn_seq : s.armPowerOn.seq = s.seq := s.armPowerOn_within.same .seq (by decide)
@[simp] theorem State.armPowerOn_plu : s.armPowerOn.plu = s.plu := s.armPowerOn_within.same .plu (by decide)

variable (ms : Nat) (e : Option Nat) (silent : Bool)

theorem State.takeArm_seq : (s.takeArm ms e silent).seq = s.seq.become { s.seq with
    showState := .armed
    endPosition := e.map fun e => e * Config.framesPerMs
    silent := silent
    startDeadline := none } := by
  simp [State.takeArm]

theorem State.takeArm_plu : (s.takeArm ms e silent).plu =
    { s.plu with position := ms * Config.framesPerMs, queue := [], starvation := 0 } := by
  simp [State.takeArm, State.seqTake_plu]

theorem State.takeArm_drive (i : Pump) : (s.takeArm ms e silent).dlc[i] = s.poweredOn i := by
  simp only [State.takeArm, State.seqTake_dlc, State.armPowerOn_drive]
  rfl

end arm

/-- An ARM that passes the tests of R6 in IDLE is accepted. -/
theorem armRequest_accepted {s : State} {body : List Byte} (length : body.length = 9) (estop : s.estop = false)
    (idle : s.seq.showState = .idle) (fits : ∀ e, armEndMs body = some e → armStartMs body < e) :
    armRequest body s = (s.takeArm (armStartMs body) (armEndMs body) (decide (field body 8 1 ≠ 0)), .ok, []) := by
  have inTime : armEndTooEarly body = false := by
    unfold armEndTooEarly
    split
    · rename_i e end_
      exact decide_eq_false (Nat.not_le.mpr (fits e end_))
    · rfl
  simp [armRequest, length, estop, idle, inTime]

/-- Settles O14: an accepted ARM is `State.takeArm`, taken apart field by field. -/
theorem armPositionsTheShow : Obligations.ArmPositionsTheShow := by
  rintro s tag body start endMs h length estop idle rfl rfl fits
  refine ⟨s.takeArm (armStartMs body) (armEndMs body) (decide (field body 8 1 ≠ 0)),
    .of_reply rfl h (armRequest_accepted length estop idle fits), ?_⟩
  rw [State.takeArm_seq]
  refine ⟨State.takeArm_plu .., Seq.become_showState .., Seq.become_endPosition .., Seq.become_silent .., Seq.become_startDeadline ..,
    Seq.become_idleCause .., Seq.become_resetOrigin .., fun i => State.takeArm_drive ..⟩

/-! ## START, PAUSE, RESUME (R8, R11, R12) -/

section running

variable (s : State)

theorem State.run_seq : s.run.seq =
    s.seq.become { s.seq with showState := .running, holdCause := none, startDeadline := none } := State.seqTake_seq ..

/-- A show that starts or resumes begins to count empty frames at 0 (R32). -/
theorem State.run_plu {s : State} (h : s.seq.showState ≠ .running) : s.run.plu = { s.plu with starvation := 0 } := by
  rw [State.run, State.seqTake_plu, if_pos ⟨rfl, h⟩]

theorem State.holdFor_seq (c : HoldCause) :
    (s.holdFor c).seq = s.seq.become { s.seq with showState := .hold, holdCause := some c } := State.seqTake_seq ..

theorem State.holdFor_plu (c : HoldCause) : (s.holdFor c).plu = s.plu := (s.holdFor_within c).same .plu (by decide)

/-- Holding a show for the cause for which it is held changes nothing (R5, R11). -/
theorem State.holdFor_same {c : HoldCause} (hold : s.seq.showState = .hold) (cause : s.seq.holdCause = some c) : s.holdFor c = s := by
  have record : { s.seq with showState := .hold, holdCause := some c } = s.seq := by rw [← hold, ← cause]
  rw [State.holdFor, record]
  simp [State.seqTake, Seq.become, State.withSeq]

end running

/-- Settles O15: the branches of START in turn. -/
theorem startRunsOrWaitsForMusic : Obligations.StartRunsOrWaitsForMusic := by
  intro s tag h
  refine ⟨fun armed => ⟨fun fresh => ⟨fun music => ?_, fun sounding short => ?_⟩, fun pending => ?_⟩, fun other => ?_⟩
  · refine ⟨s.run, .of_bodiless rfl h ?_, ?_⟩
    · simp [startRequest, armed, fresh, music]
    · rw [State.run_seq, State.run_plu (by simp [armed])]
      simp
  · refine .of_bodiless rfl h ?_
    simp [startRequest, armed, fresh, sounding, Nat.not_le.mpr short, after]
  · refine .of_bodiless rfl h ?_
    obtain ⟨deadline, hd⟩ := Option.ne_none_iff_exists'.mp pending
    simp [startRequest, armed, hd]
  · refine .of_bodiless rfl h ?_
    unfold startRequest refuse
    split
    · exact absurd ‹_› other
    all_goals split <;> rfl

/-- Settles O16: PAUSE and RESUME are `State.holdFor` and `State.run`, by show state and hold cause. -/
theorem pauseHoldsAndResumeRuns : Obligations.PauseHoldsAndResumeRuns := by
  intro s p tag
  refine ⟨fun h => ⟨fun playing => ⟨s.holdFor .paused, .of_bodiless rfl h ?_, ?_⟩, fun run hold => .of_bodiless rfl h ?_⟩,
    fun h => ⟨fun hold paused => ?_, fun playing => .of_bodiless rfl h ?_, fun run hold => .of_bodiless rfl h ?_⟩⟩
  · rcases playing with h | h <;> simp [pauseRequest, h]
  · rw [State.holdFor_seq, State.holdFor_plu]
    simpa using s.holdFor_same
  · unfold pauseRequest refuse
    split
    all_goals first | rfl | contradiction
  · by_cases music : s.seq.silent = true ∨ s.tables.limits.resumeLevel ≤ s.plu.lead
    · refine ⟨s.run, .of_bodiless rfl h (by simp [resumeRequest, hold, paused, music]), fun _ => ?_, fun sounding short => ?_⟩
      · rw [State.run_seq, State.run_plu (by simp [hold])]
        simp
      · rcases music with silent | level
        · exact absurd silent (by simp [sounding])
        · exact absurd level (Nat.not_le.mpr short)
    · refine ⟨s.holdFor .starved, .of_bodiless rfl h (by simp [resumeRequest, hold, paused, music]), fun k => absurd k music,
        fun _ _ => ?_⟩
      rw [State.holdFor_seq, State.holdFor_plu]
      simp
  · rcases playing with run | ⟨hold, cause⟩
    · simp [resumeRequest, run]
    · simp [resumeRequest, hold, cause]
  · unfold resumeRequest refuse
    split
    all_goals first | rfl | contradiction

/-! ## STOP and SEQ's own events (R10, R13–R16) -/

section events

variable (s : State)

theorem State.fadeOut_seq (c : FadeCause) : (s.fadeOut c).seq = s.seq.become { s.seq with
    showState := .fading
    holdCause := none
    startDeadline := none
    fadeEnd := some (s.plu.position + s.tables.limits.fadeTime * Config.framesPerMs)
    fadeCause := some c } := by
  simp [State.fadeOut, State.flushAudio, State.installFade, State.installCues]

theorem State.fadeOut_plu (c : FadeCause) : (s.fadeOut c).plu = { s.plu with queue := [] } := by
  simp [State.fadeOut, State.seqTake_plu, State.flushAudio, State.installFade, State.installCues]

/-- SHOW_STATE comes after what the installation of the fade cues has raised (R5, R46). -/
theorem State.fadeOut_port (c : FadeCause) (h : s.seq.showState ≠ .fading) (p : Port) :
    (s.fadeOut c).port p = (s.installFade.port p).place ⟨.showState, 0, s.plu.position, s.clock.now⟩ := by
  rw [State.fadeOut, State.seqTake_port, if_neg]
  · simp [State.flushAudio, State.installFade, State.installCues]
  · simp [Seq.shownFields, State.flushAudio, State.installFade, State.installCues, Ne.symm h]

/-- What STOP and the end of the show do, part by part (R14, R16, R46, R54). -/
theorem State.fadeOut_fadesFrom (c : FadeCause) (h : s.seq.showState ≠ .fading) : s.FadesFrom c (s.fadeOut c) := by
  have cues := s.installFade_within
  have ports := s.fadeOut_port c h
  unfold State.FadesFrom
  rw [State.fadeOut_seq, State.fadeOut_plu, State.fadeOut_cst]
  refine ⟨by simp, by simp [Config.framesPerMs], by simp, by simp, by simp, by simp, by simp, rfl, fun ch => ?_,
    by simp [State.installFade], by simp [State.installFade], by simp [State.installFade], s.installFade.mpShow, s.installCues_tested .., ports .showPort,
    ?_, ?_⟩
  · rw [State.installFade, State.installCues_lists, Fin.getElem_fin, getElem_tabulate]
    rfl
  · exact (ports .plantPort).trans (by rw [show s.installFade.port .plantPort = s.mpPlant from cues.same .mpPlant (by decide)])
  · exact (ports .consolePort).trans (by rw [show s.installFade.port .consolePort = s.mpConsole from cues.same .mpConsole (by decide)])

theorem State.endFade_seq : s.endFade.seq =
    s.seq.become (s.seq.idleWith ((s.seq.fadeCause.map FadeCause.idle).getD s.seq.idleCause)) := State.seqTake_seq ..

theorem State.endFade_plu : s.endFade.plu = s.plu := s.endFade_within.same .plu (by decide)
theorem State.endFade_cst : s.endFade.cst = s.cst := s.endFade_within.same .cst (by decide)

end events

/-- Settles O17: STOP is `State.fadeOut` in ARMED, RUNNING and HOLD. -/
theorem stopFadesTheShow : Obligations.StopFadesTheShow := by
  intro s p tag h
  refine ⟨fun playing => ⟨s.fadeOut .stopped, .of_bodiless rfl h ?_, s.fadeOut_fadesFrom _ ?_⟩, fun fading => .of_bodiless rfl h ?_,
    fun idle => .of_bodiless rfl h ?_, fun unconfigured => .of_bodiless rfl h ?_⟩
  · rcases playing with h | h | h <;> simp [stopRequest, h]
  · rcases playing with h | h | h <;> simp [h]
  · simp [stopRequest, fading]
  · simp [stopRequest, idle]
  · simp [stopRequest, unconfigured, refuse]

/-- Settles O18: each event of SEQ that has come is the operation of its row. -/
theorem sequencerEventsChangeTheShow : Obligations.SequencerEventsChangeTheShow := by
  intro s
  refine ⟨fun running reached => ⟨s.fadeOut .ended, ?_, s.fadeOut_fadesFrom _ (by simp [running])⟩,
    fun running asked => ⟨s.holdFor .starved, ?_, ?_⟩, fun cause fading reached hc => ⟨s.endFade, ?_, ?_⟩,
    fun d armed hd late => ?_⟩
  · simp [exec, execEndOfShow, State.endDue, running, reached]
  · simp [exec, execStarvationHold, State.holdDue, running, asked]
  · rw [State.holdFor_seq, State.holdFor_plu]
    simp
  · simp [exec, execFadeEnd, State.fadeDue, fading, reached]
  · rw [State.endFade_seq, State.endFade_plu, State.endFade_cst, hc]
    cases cause <;> simp [Seq.idleWith, FadeCause.idle]
  · have expired : s.startExpired = true := by
      simp only [State.startExpired, hd, armed, decide_true, Bool.true_and]
      exact decide_eq_true late
    simp [exec, execStartDeadlineExpiry, expired, State.startTimeout]

end Sys2Proof.Machine
end

section
namespace Sys2Proof.Machine

/-! ## Arrival of a block (R20, R22–R25) -/

/-- A position or lead in four bytes is some 32-bit number: the position itself below 2^32 (R185; notes/assumptions/27). -/
theorem positionField_eq (n : Nat) : ∃ x : BitVec 32, positionField n = bytes 4 x.toNat ∧ (n < 4294967296 → x.toNat = n) := by
  unfold positionField
  split
  · rename_i small
    have value : (BitVec.ofNat 32 n).toNat = n := by rw [BitVec.toNat_ofNat]; exact Nat.mod_eq_of_lt small
    exact ⟨BitVec.ofNat 32 n, by rw [value], fun _ => value⟩
  · rename_i great
    exact ⟨_, rfl, fun small => absurd small great⟩

theorem blockFrames_length (body : List Byte) : (blockFrames body).length = blockCount body := by
  simp [blockFrames, pieces]

/-- The trimmed block ends where the block does (R24). -/
theorem AudioBlock.trimTo_endPos {b : AudioBlock} {e : Nat} (late : b.position < e) (fresh : e < b.endPos) :
    (b.trimTo e).endPos = b.endPos := by
  simp only [AudioBlock.endPos, AudioBlock.trimTo, List.length_drop] at *
  omega

section wellFormed

variable {position count : Nat} {samples : List Byte}

/-- The fields of a well-formed AUDIO_BLOCK body (R20). -/
theorem audioBody_fields (few : count ≤ 240) (last : position < 4294967296) :
    field (bytes 4 position ++ bytes 2 count ++ samples) 0 4 = position ∧
      blockCount (bytes 4 position ++ bytes 2 count ++ samples) = count := by
  constructor
  · rw [List.append_assoc, field_head _ _ _ (by omega)]
  · rw [blockCount, List.append_assoc, field_skip _ _ _ _ (by simp), bytes_length, field_head _ _ _ (by omega)]

theorem audioBody_ok (some_ : 1 ≤ count) (few : count ≤ 240) (length : samples.length = 6 * count)
    (end_ : position + count ≤ 4294967296) : blockOk (bytes 4 position ++ bytes 2 count ++ samples) = true := by
  obtain ⟨hp, hc⟩ := audioBody_fields (samples := samples) few (show position < 4294967296 by omega)
  simp only [blockOk, hp, hc, List.length_append, bytes_length, length, Config.blockFrames]
  simp
  omega

end wellFormed

section arrival

variable (s : State) (b : AudioBlock)

/-- A block at the tail of the queue, the low mark re-armed, and SEQ not yet told (R24, R36). -/
def State.enqueued : State := (s.withPlu { s.plu with queue := s.plu.queue ++ [b] }).lowMarkRearm

theorem State.queueBlock_eq : s.queueBlock b = (s.enqueued b).reportLead := rfl

theorem State.enqueued_expectedNext : (s.enqueued b).plu.expectedNext = b.endPos := by
  simp [State.enqueued, State.lowMarkRearm_plu, Plu.expectedNext]

theorem State.enqueued_lead : (s.enqueued b).plu.lead = b.endPos - s.plu.position := by
  rw [Plu.lead, State.enqueued_expectedNext]
  simp [State.enqueued, State.lowMarkRearm_plu]

theorem State.enqueued_plu : (s.enqueued b).plu = { s.plu with
    queue := s.plu.queue ++ [b]
    lowMarkArmed := if s.tables.limits.lowMark + 2400 ≤ b.endPos - s.plu.position then true else s.plu.lowMarkArmed } := by
  have lead : ({ s.plu with queue := s.plu.queue ++ [b] } : Plu).lead = b.endPos - s.plu.position := by simp [Plu.lead, Plu.expectedNext]
  rw [State.enqueued, State.lowMarkRearm_plu, ← lead]
  rfl

@[simp] theorem State.enqueued_seq : (s.enqueued b).seq = s.seq := by simp [State.enqueued]
@[simp] theorem State.enqueued_tables : (s.enqueued b).tables = s.tables := by simp [State.enqueued]
@[simp] theorem State.enqueued_clock : (s.enqueued b).clock = s.clock := by simp [State.enqueued]
@[simp] theorem State.enqueued_port (p : Port) : (s.enqueued b).port p = s.port p := by simp [State.enqueued]

/-- The lead that PLU reports starts a pending show or resumes a starved one (R9, R13). -/
def State.LeadRuns (lead : Nat) : Prop :=
  (s.seq.showState = .armed ∧ s.seq.startDeadline.isSome = true ∧ s.tables.limits.startLevel ≤ lead) ∨
    (s.seq.showState = .hold ∧ s.seq.holdCause = some .starved ∧ s.tables.limits.resumeLevel ≤ lead)

theorem State.LeadRuns.not_running {s : State} {lead : Nat} (h : s.LeadRuns lead) : s.seq.showState ≠ .running := by
  rcases h with ⟨h, -⟩ | ⟨h, -⟩ <;> simp [h]

theorem State.reportLead_of_runs {s : State} (h : s.LeadRuns s.plu.lead) : s.reportLead = s.run := by
  unfold State.reportLead
  rcases h with h | h
  · exact if_pos h
  · rw [if_pos h, ite_self]

theorem State.reportLead_of_not_runs {s : State} (h : ¬ s.LeadRuns s.plu.lead) : s.reportLead = s := by
  obtain ⟨start, resume⟩ := not_or.mp h
  rw [State.reportLead, if_neg start, if_neg resume]

theorem State.run_port {s : State} (h : s.seq.showState ≠ .running) (p : Port) :
    s.run.port p = (s.port p).place ⟨.showState, 0, s.plu.position, s.clock.now⟩ := by
  rw [State.run, State.seqTake_port, if_neg]
  simp [Seq.shownFields, Ne.symm h]

/-- What a queued block does to PLU (R24, R32, R36). -/
theorem State.queueBlock_plu : ∃ n, (s.queueBlock b).plu = { (s.enqueued b).plu with starvation := n } := by
  rw [State.queueBlock_eq]
  by_cases runs : (s.enqueued b).LeadRuns (s.enqueued b).plu.lead
  · rw [State.reportLead_of_runs runs, State.run_plu runs.not_running]
    exact ⟨0, rfl⟩
  · rw [State.reportLead_of_not_runs runs]
    exact ⟨_, rfl⟩

/-- A queued block whose lead reaches the level runs the show. -/
theorem State.queueBlock_runs (h : s.LeadRuns (b.endPos - s.plu.position)) : s.queueBlock b = (s.enqueued b).run := by
  rw [State.queueBlock_eq]
  refine State.reportLead_of_runs ?_
  simpa only [State.enqueued_lead, State.LeadRuns, State.enqueued_seq, State.enqueued_tables] using h

theorem State.queueBlock_waits (h : ¬ s.LeadRuns (b.endPos - s.plu.position)) : s.queueBlock b = s.enqueued b := by
  rw [State.queueBlock_eq]
  refine State.reportLead_of_not_runs ?_
  simpa only [State.enqueued_lead, State.LeadRuns, State.enqueued_seq, State.enqueued_tables] using h

end arrival

/-- The response to a queued block carries its end, and the lead from the show position to there (R25). -/
theorem State.queueBlock_positionBody (s : State) (b : AudioBlock) :
    (s.queueBlock b).plu.positionBody = positionField b.endPos ++ positionField (b.endPos - s.plu.position) := by
  obtain ⟨n, h⟩ := s.queueBlock_plu b
  rw [h, ← s.enqueued_lead b, ← s.enqueued_expectedNext b]
  rfl

/-- AUDIO_BLOCK by show state and expected next position (R23, R24). -/
theorem audioBlockRequest_taken {s : State} {body : List Byte} (ok : blockOk body = true) (estop : s.estop = false)
    (takes : s.seq.showState.takesBlocks = true) : audioBlockRequest body s =
      ((s.judgeBlock (blockOf body)).1, (s.judgeBlock (blockOf body)).2, (s.judgeBlock (blockOf body)).1.plu.positionBody) := by
  unfold audioBlockRequest
  rw [if_neg (by simp [ok]), if_neg (by simp [estop])]
  cases h : s.seq.showState <;> first | rfl | simp [h, ShowState.takesBlocks] at takes

/-- The block that joins the queue, whole or trimmed at the front (R24). -/
theorem State.judgeBlock_queued {s : State} {b : AudioBlock} (fresh : s.plu.expectedNext < b.endPos) (room : s.plu.queue.length < 64) :
    ∃ x : AudioBlock, s.judgeBlock b = (s.queueBlock x, if b.position < s.plu.expectedNext then .trimmed else .ok) ∧
      x.position = max b.position s.plu.expectedNext ∧ x.endPos = b.endPos ∧
      x.frames = b.frames.drop (s.plu.expectedNext - b.position) := by
  unfold State.judgeBlock
  simp only
  rw [if_neg (Nat.not_le.mpr fresh), if_neg (by simpa [Config.audioBlocks] using room)]
  by_cases early : b.position < s.plu.expectedNext
  · rw [if_pos early, if_pos early]
    exact ⟨b.trimTo s.plu.expectedNext, rfl, (max_eq_right early.le).symm, AudioBlock.trimTo_endPos early fresh, rfl⟩
  · rw [if_neg early, if_neg early]
    refine ⟨b, rfl, by omega, rfl, ?_⟩
    rw [Nat.sub_eq_zero_of_le (Nat.le_of_not_lt early), List.drop_zero]

/-- Settles O22: the body read back, then the judgement of R24 branch by branch, then what a queued block does. -/
theorem audioBlocksAreJudgedAgainstTheExpectedPosition : Obligations.AudioBlocksAreJudgedAgainstTheExpectedPosition := by
  intro s tag body samples position count h some_ few length end_ hbody
  have ok : blockOk body = true := hbody ▸ audioBody_ok some_ few length end_
  obtain ⟨hp, hc⟩ := audioBody_fields (samples := samples) few (show position < 4294967296 by omega)
  rw [← hbody] at hp hc
  have blockEnd : (blockOf body).endPos = position + count := by
    rw [AudioBlock.endPos, blockOf, blockFrames_length, hp, hc]
  refine ⟨fun estop => .of_reply rfl h ?_, fun clear quiet => .of_reply rfl h ?_, fun clear takes => ?_⟩
  · simp [audioBlockRequest, ok, estop]
  · unfold audioBlockRequest
    rw [if_neg (by simp [ok]), if_neg (by simp [clear])]
    cases state : s.seq.showState <;> first | rfl | simp [state, ShowState.takesBlocks] at quiet
  have taken := audioBlockRequest_taken ok clear takes
  refine ⟨fun late => .of_reply rfl h ?_, fun fresh full => .of_reply rfl h ?_, fun fresh room => ?_⟩
  · rw [taken, State.judgeBlock, if_pos (by rwa [blockEnd])]
  · rw [taken, State.judgeBlock, if_neg (by rw [blockEnd]; omega), if_pos (show Config.audioBlocks ≤ s.plu.queue.length from full)]
  obtain ⟨b, judged, bPosition, bEnd, bFrames⟩ := State.judgeBlock_queued (b := blockOf body) (by rwa [blockEnd]) room
  rw [blockEnd] at bEnd
  rw [show (blockOf body).position = position from hp] at judged bPosition bFrames
  obtain ⟨next, hnext, nextValue⟩ := positionField_eq (position + count)
  obtain ⟨lead, hlead, leadValue⟩ := positionField_eq (position + count - s.plu.position)
  refine ⟨s.queueBlock b, b, next, lead, .of_reply rfl h ?_, nextValue, leadValue, ?_⟩
  · rw [taken, judged, State.queueBlock_positionBody, bEnd, hnext, hlead]
  have plu := s.enqueued_plu b
  rw [bEnd] at plu
  obtain ⟨n, hn⟩ := s.queueBlock_plu b
  rw [plu] at hn
  refine ⟨by rw [hn], by rw [hn], by rw [hn], bPosition, bEnd, bFrames, fun runs hruns => ⟨fun h => ?_, fun h => ?_⟩, by rw [hn]⟩
  all_goals rw [hruns] at h
  · have starts : s.LeadRuns (b.endPos - s.plu.position) := by rw [bEnd]; exact h
    have still : (s.enqueued b).seq.showState ≠ .running := by rw [State.enqueued_seq]; exact starts.not_running
    rw [s.queueBlock_runs b starts, State.run_seq, State.run_plu still]
    refine ⟨by simp, by simp, by simp, by simp, by simp, rfl, fun q => ?_⟩
    rw [State.run_port still, State.enqueued_port, State.enqueued_clock, plu]
  · have waits : ¬ s.LeadRuns (b.endPos - s.plu.position) := by rw [bEnd]; exact h
    rw [s.queueBlock_waits b waits, plu]
    exact ⟨s.enqueued_seq b, rfl, s.enqueued_port b⟩

/-! ## The output frame event (R30–R33, R35) -/

section outputFrame

variable (s : State)

/-- A frame taken of silence is silence, whatever the volume (R30). -/
theorem Frame.silence_scaled (volume : Nat) : Frame.silence.scaled volume = ⟨0, 0⟩ := by simp [Frame.silence, Frame.scaled]

theorem Plu.chosen_of_empty {p : Plu} (h : p.queue = []) : p.chosen = .silence := by simp [Plu.chosen, h]

theorem Plu.chosen_before {p : Plu} {b : AudioBlock} {bs : List AudioBlock} (h : p.queue = b :: bs) (early : p.position < b.position) :
    p.chosen = .silence := by
  simp [Plu.chosen, h, Nat.not_le.mpr early]

theorem Plu.chosen_within {p : Plu} {b : AudioBlock} {bs : List AudioBlock} {f : Frame} (h : p.queue = b :: bs)
    (begun : b.position ≤ p.position) (hf : b.frames[p.position - b.position]? = some f) : p.chosen = f := by
  simp [Plu.chosen, h, begun, hf]

theorem Plu.retired_cons {p : Plu} {b : AudioBlock} {bs : List AudioBlock} (h : p.queue = b :: bs) :
    p.retired = if b.position + b.frames.length ≤ p.position + 1 then bs else b :: bs := by
  simp only [Plu.retired, h]
  rfl

/-- The lead, by the last block of the queue (R22). -/
theorem Plu.lead_of_last {p : Plu} {lead : Nat} (h : lead = match p.queue.getLast? with
    | some b => b.position + b.frames.length - p.position
    | none => 0) : p.lead = lead := by
  subst h
  unfold Plu.lead Plu.expectedNext
  cases p.queue.getLast? with
  | some b => rfl
  | none => exact Nat.sub_self _

theorem State.lowMarkTest_due {s : State} (h : s.seq.showState = .running ∧ s.seq.silent = false ∧ s.plu.lowMarkArmed = true ∧
    s.plu.lead < s.tables.limits.lowMark) : s.lowMarkTest.plu.lowMarkArmed = false ∧
      s.lowMarkTest.mpShow = s.mpShow.place ⟨.audioLow, 0, s.plu.lead, s.clock.now⟩ := by
  rw [State.lowMarkTest, if_pos h]
  exact ⟨rfl, rfl⟩

/-- The part after the advance by one frame, before the low-mark test (R30–R33). -/
def State.advanced : State :=
  (s.withPlu { s.plu with
    output := s.frameOut, position := s.plu.position + 1, queue := s.plu.retired, starvation := s.starvationAfter }).withSeq
      (s.handedAt (s.plu.position + 1))

theorem State.outputFrame_running {s : State} (h : s.clockRuns = true) : s.outputFrame = s.advanced.lowMarkTest := by
  unfold State.outputFrame
  simp only
  rw [if_pos h]
  rfl

theorem State.outputFrame_standing {s : State} (h : s.clockRuns = false) :
    s.outputFrame = s.withPlu { s.plu with output := ⟨0, 0⟩ } := by
  simp [State.outputFrame, State.frameOut, h, Frame.silence]

/-! ### What SEQ takes before a frame (R31) -/

/-- Nothing that SEQ was handed waits. -/
def State.Settled : Prop := s.fadeDue = false ∧ s.endDue = false ∧ s.holdDue = false

theorem State.settled_iff : s.Settled ↔ (s.seq.showState = .fading → s.seq.fadeReached = false) ∧
    (s.seq.showState = .running → s.seq.endReached = false ∧ s.seq.holdAsked = false) := by
  simp only [State.Settled, State.fadeDue, State.endDue, State.holdDue]
  grind

theorem State.Settled.settleSeq {s : State} (h : s.Settled) : s.settleSeq = s := by
  obtain ⟨fade, end_, hold⟩ := h
  simp [State.settleSeq, fade, end_, hold]

/-- After a change of the show state nothing that SEQ was handed before waits (R31). -/
theorem State.settleSeq_settled : s.settleSeq.Settled := by
  rw [State.settled_iff]
  unfold State.settleSeq
  split
  · simp [State.endFade_seq, Seq.idleWith]
  · split
    · rename_i due
      have running : s.seq.showState = .running := by simp_all [State.endDue]
      simp [State.fadeOut_seq, Seq.become, Seq.clearAsked, running]
    · split
      · simp [State.holdFor_seq]
      · exact s.settled_iff.mp ⟨by simp_all, by simp_all, by simp_all⟩

theorem exec_outputFrameEvent : exec .outputFrameEvent s = .next s.settleSeq.outputFrame := rfl

/-- An event of SEQ taken by its own row is the one that the next frame would take (R31). -/
theorem exec_outputFrameEvent_settled {s u : State} (h : s.settleSeq = u) :
    exec .outputFrameEvent s = exec .outputFrameEvent u := by
  subst h
  rw [exec_outputFrameEvent, exec_outputFrameEvent, s.settleSeq_settled.settleSeq]

/-! ### What a running frame leaves (R30–R35) -/

/-- The low-mark test after the advance, by the lead that is left (R35). -/
theorem State.advanced_lowMark {s : State} {lead : Nat} (h : s.advanced.plu.lead = lead) :
    (s.seq.showState = .running ∧ s.seq.silent = false ∧ s.plu.lowMarkArmed = true ∧ lead < s.tables.limits.lowMark →
      s.advanced.lowMarkTest.plu.lowMarkArmed = false ∧
        s.advanced.lowMarkTest.mpShow = s.mpShow.place ⟨.audioLow, 0, lead, s.clock.now⟩) ∧
    (s.seq.showState = .fading ∨ s.seq.silent = true ∨ s.plu.lowMarkArmed = false ∨ s.tables.limits.lowMark ≤ lead →
      s.advanced.lowMarkTest.plu.lowMarkArmed = s.plu.lowMarkArmed ∧ s.advanced.lowMarkTest.mpShow = s.mpShow) := by
  subst h
  refine ⟨fun due => State.lowMarkTest_due (s := s.advanced) due, fun spared => ?_⟩
  have notDue : ¬ (s.advanced.seq.showState = .running ∧ s.advanced.seq.silent = false ∧ s.advanced.plu.lowMarkArmed = true ∧
      s.advanced.plu.lead < s.advanced.tables.limits.lowMark) := by
    rintro ⟨running, sounding, armed, short⟩
    rcases spared with fading | silent | disarmed | level
    · exact absurd (running.symm.trans fading) (by decide)
    · exact absurd (sounding.symm.trans silent) (by decide)
    · exact absurd (armed.symm.trans disarmed) (by decide)
    · exact absurd short (Nat.not_lt.mpr level)
  rw [State.lowMarkTest, if_neg notDue]
  exact ⟨rfl, rfl⟩

/-- The frame put out for a position within the head block (R30). -/
theorem State.frameOut_within {s : State} {b : AudioBlock} {bs : List AudioBlock} {f : Frame} (runs : s.clockRuns = true)
    (h : s.plu.queue = b :: bs) (begun : b.position ≤ s.plu.position) (hf : b.frames[s.plu.position - b.position]? = some f) :
    (s.estop = false →
      s.frameOut = ⟨(f.left * (s.plu.volume : Int)).tdiv 1000, (f.right * (s.plu.volume : Int)).tdiv 1000⟩) ∧
    (s.estop = true → s.frameOut = ⟨0, 0⟩) := by
  rw [State.frameOut, if_pos runs, Plu.chosen_within h begun hf, State.soundingVolume]
  exact ⟨fun clear => by simp [clear, Frame.scaled], fun stopped => by simp [stopped, Frame.scaled]⟩

/-- The end recorded, or the end of the day (R16). -/
theorem Seq.endAt_iff (q : Seq) (n : Nat) :
    q.endAt n = true ↔ 4147200000 ≤ n ∨ ∃ e, q.endPosition = some e ∧ e ≤ n := by
  rw [Seq.endAt, Bool.or_eq_true]
  refine or_congr decide_eq_true_iff ?_
  cases q.endPosition <;> simp

theorem Seq.fadeEndAt_iff (q : Seq) (n : Nat) : q.fadeEndAt n = true ↔ ∃ e, q.fadeEnd = some e ∧ e ≤ n := by
  unfold Seq.fadeEndAt
  cases q.fadeEnd <;> simp

/-- Settles O24: what SEQ was handed is taken first, and then the frame advances a running clock and is silence on a standing one. -/
theorem outputFramesAdvanceTheShowClock : Obligations.OutputFramesAdvanceTheShowClock := by
  intro s
  refine ⟨fun u taken => exec_outputFrameEvent_settled ?_, fun fade playing => ?_⟩
  · rcases taken with ⟨fading, reached, h⟩ | ⟨running, reached, h⟩ | ⟨running, notEnded, asked, h⟩
    all_goals
      obtain rfl := Host.Outcome.next.inj h
      simp_all [State.settleSeq, State.fadeDue, State.endDue, State.holdDue]
  have settled : s.settleSeq = s := (s.settled_iff.mpr ⟨fade, playing⟩).settleSeq
  rw [exec_outputFrameEvent, settled]
  refine ⟨fun run fading => by rw [State.outputFrame_standing (by simp [State.clockRuns, run, fading])], fun running => ?_⟩
  have runs : s.clockRuns = true := by simpa [State.clockRuns] using running
  have frame := s.advanced.lowMarkTest_within
  refine ⟨_, rfl, ?_⟩
  rw [State.outputFrame_running runs, State.lowMarkTest_seq, State.lowMarkTest_cst, State.lowMarkTest_position, State.lowMarkTest_queue,
    State.lowMarkTest_starvation, State.lowMarkTest_volume, State.lowMarkTest_output]
  refine ⟨rfl, rfl, rfl, rfl, rfl, rfl, frame.same .mpPlant (by decide), frame.same .mpConsole (by decide), fun empty => ⟨?_, ?_⟩,
    fun b bs queue => ⟨Plu.retired_cons queue, fun early => ?_, fun f begun hf => State.frameOut_within runs queue begun hf⟩, rfl,
    ?_, ?_, ?_, fun lead hlead => State.advanced_lowMark (Plu.lead_of_last hlead)⟩
  · show s.plu.retired = []
    simp [Plu.retired, empty]
  · show s.frameOut = ⟨0, 0⟩
    rw [State.frameOut, if_pos runs, Plu.chosen_of_empty empty, Frame.silence_scaled]
  · show s.frameOut = ⟨0, 0⟩
    rw [State.frameOut, if_pos runs, Plu.chosen_before queue early, Frame.silence_scaled]
  · simp [State.advanced, State.handedAt, and_assoc]
  · simp [State.advanced, State.handedAt, Seq.endAt_iff]
  · simp [State.advanced, State.handedAt, Seq.fadeEndAt_iff]

end outputFrame

end Sys2Proof.Machine
end

section
namespace Sys2Proof.Machine

/-! ## RESTART (R193) -/

section restart

variable (s : State)

/-- A port's list after RESTART holds the one SHOW_STATE (R186, R193). -/
theorem MasterPort.clearNotices_place (m : MasterPort) (n : Notice) :
    m.clearNotices.place n = { m with notices := [n], dropped := false, attention := true } := by
  simp [MasterPort.place, MasterPort.clearNotices, MasterPort.settle, Config.noticePlaces]

theorem State.restarted_plu : s.restarted.plu =
    { s.plu with position := 0, queue := [], starvation := 0, volume := 1000, lowMarkArmed := true } := rfl

theorem State.restarted_cst : s.restarted.cst = ⟨uniform 336 [], Config.poolSize, tabulate s.tables.restValue, 0, true⟩ := rfl

theorem State.restarted_cha : s.restarted.cha =
    ⟨tabulate fun c => { s.cha.records[c] with claim := none, rejoin := none }, 0⟩ := rfl

end restart

/-- Settles O60: RESTART part by part. -/
theorem restartAbandonsTheShow : Obligations.RestartAbandonsTheShow := by
  intro s tag h
  refine ⟨s.restarted, .of_bodiless rfl h rfl, ?_⟩
  rw [State.restarted_seq, State.restarted_plu, State.restarted_cst, State.restarted_cha]
  refine ⟨by simp [Seq.restarted], rfl, rfl, rfl, rfl, rfl, rfl, rfl, rfl, rfl, fun c => ?_, rfl, rfl, rfl, rfl, fun p => ?_⟩
  · simp only [Fin.getElem_fin, getElem_uniform, getElem_tabulate]
    exact ⟨trivial, trivial, trivial⟩
  · rw [State.restarted_port, MasterPort.clearNotices_place]
    exact ⟨rfl, rfl, rfl, rfl, rfl, rfl, rfl, rfl, rfl⟩

/-! ## CONFIG_OPEN (R188) -/

section configOpen

variable (s : State)

/-- A pump blocks an opening: its commanded speed is above 0 or its drive is LOCAL (R188). -/
def State.blocks (i : Pump) : Bool := decide (0 < s.pgv.pumps[i].commanded) || decide (s.dlc[i].power = .underLocal)

theorem State.blocks_eq_true {s : State} {i : Pump} :
    s.blocks i = true ↔ 0 < s.pgv.pumps[i].commanded ∨ s.dlc[i].power = .underLocal := by
  simp [State.blocks]

theorem State.blocks_eq_false {s : State} {i : Pump} :
    s.blocks i = false ↔ s.pgv.pumps[i].commanded = 0 ∧ s.dlc[i].power ≠ .underLocal := by
  simp [State.blocks]

theorem State.blockingPump_eq : s.blockingPump = Fin.find? s.blocks := Fin.find?_eq_find?_finRange.symm

/-- What an accepted CONFIG_OPEN leaves of SEQ's record (R18). -/
theorem State.seqOpen_seq : s.seqOpen.seq = s.seq.become { s.seq with showState := .unconfigured } := State.seqTake_seq ..

theorem State.openConfig_cfg (x : Cfg) : (s.withCfg x).seqOpen.cfg = x := State.seqTake_cfg ..

end configOpen

section judgedOpen

variable {s : State} (closed : s.cfg.state ≠ .opened) (quiet : s.seq.showState = .idle ∨ s.seq.showState = .unconfigured)

include closed quiet

/-- CONFIG_OPEN in DEFAULTS or VALID, in IDLE or UNCONFIGURED, with a pump that blocks it (R188). -/
theorem configOpenRequest_blocked {i : Pump} (h : Fin.find? s.blocks = some i) :
    configOpenRequest [] s = (s, .busyState, [BitVec.ofNat 8 i.val]) := by
  rw [configOpenRequest, if_neg (by simp), if_neg closed, if_neg (by rcases quiet with h | h <;> simp [h]), State.blockingPump_eq, h,
    ← bytes_one]

theorem configOpenRequest_accepted (h : Fin.find? s.blocks = none) :
    configOpenRequest [] s = ((s.withCfg ⟨.opened, s.tables⟩).seqOpen, .ok, []) := by
  rw [configOpenRequest, if_neg (by simp), if_neg closed, if_neg (by rcases quiet with h | h <;> simp [h]), State.blockingPump_eq, h]

end judgedOpen

/-! ## Single bytes of a body (R185) -/

theorem field_one {body : List Byte} {n : Nat} (h : n < body.length) : field body n 1 = body[n].toNat := by
  simp [field, List.take_one_drop_eq_of_lt_length h]

/-- The bytes of a body from byte `first` on, as numbers. -/
theorem map_drop_eq_fields {body : List Byte} {first n : Nat} (h : body.length = first + n) :
    (body.drop first).map BitVec.toNat = (List.range n).map fun k => field body (first + k) 1 := by
  refine List.ext_getElem (by simp [h]) fun k _ hk => ?_
  have bound : first + k < body.length := by simp at hk; omega
  simp [field_one bound]

/-- The first two bytes of a body, given back as an accepted CONFIG_WRITE does (R189). -/
theorem take_two_eq {body : List Byte} (h : 2 ≤ body.length) :
    body.take 2 = [BitVec.ofNat 8 (field body 0 1), BitVec.ofNat 8 (field body 1 1)] := by
  obtain _ | ⟨a, _ | ⟨b, rest⟩⟩ := body
  · simp at h
  · simp at h
  · simp [field]

/-! ## CONFIG_WRITE (R189) -/

section configWrite

variable {s : State} {tag : Byte} {body : List Byte} {x y : Tables}

theorem configWrite_stores (h : s.InExecution .plantPort 0x41 tag body) (opened : s.cfg.state = .opened)
    (length : 2 ≤ body.length) (written : s.cfg.held.write body = some y) :
    Answers .configWrite s .plantPort 0x41 tag body (s.withCfg ⟨.opened, y⟩) .ok
      [BitVec.ofNat 8 (field body 0 1), BitVec.ofNat 8 (field body 1 1)] := by
  refine .of_reply rfl h ?_
  rw [configWriteRequest, if_neg (by simp [opened]), written, ← take_two_eq length, ← opened]

theorem configWrite_refuses (h : s.InExecution .plantPort 0x41 tag body) (opened : s.cfg.state = .opened)
    (refused : s.cfg.held.write body = none) : Answers .configWrite s .plantPort 0x41 tag body s .badArgument [] := by
  refine .of_reply rfl h ?_
  rw [configWriteRequest, if_neg (by simp [opened]), refused, refuse]

/-! ### The item that a body names -/

theorem Tables.write_pump {i : Pump} (code : field body 0 1 = 1) (index : field body 1 1 = i.val) :
    x.write body = (pumpItem body).map fun e => { x with pumps := x.pumps.set i e } := by
  simp [Tables.write, code, index]

theorem Tables.write_jet {j : Jet} (code : field body 0 1 = 2) (index : field body 1 1 = j.val) :
    x.write body = (jetItem body).map fun e => { x with jets := x.jets.set j e } := by
  simp [Tables.write, code, index]

theorem Tables.write_fixture {l : Fixture} (code : field body 0 1 = 3) (index : field body 1 1 = l.val) :
    x.write body = (fixtureItem body).map fun e => { x with fixtures := x.fixtures.set l e } := by
  simp [Tables.write, code, index]

theorem Tables.write_low (code : field body 0 1 = 4) (index : field body 1 1 = 1) :
    x.write body = (curveItem body).map fun k => { x with low := k } := by
  simp [Tables.write, code, index]

theorem Tables.write_mid (code : field body 0 1 = 4) (index : field body 1 1 = 2) :
    x.write body = (curveItem body).map fun k => { x with mid := k } := by
  simp [Tables.write, code, index]

theorem Tables.write_tall (code : field body 0 1 = 4) (index : field body 1 1 = 3) :
    x.write body = (curveItem body).map fun k => { x with tall := k } := by
  simp [Tables.write, code, index]

theorem Tables.write_curve_refused (code : field body 0 1 = 4) (refused : curveItem body = none) : x.write body = none := by
  unfold Tables.write
  simp only [code, refused]
  split <;> rfl

theorem Tables.write_slots (code : field body 0 1 = 5) (index : field body 1 1 = 0) :
    x.write body = (slotsItem body).map fun v => { x with slots := v } := by
  simp [Tables.write, code, index]

theorem Tables.write_limits (code : field body 0 1 = 6) (index : field body 1 1 = 0) :
    x.write body = (limitsItem body).map fun l => { x with limits := l } := by
  simp [Tables.write, code, index]

/-! ### Pump items -/

theorem windClassOf_eq (n : Nat) : windClassOf n = [WindClass.none, .low, .mid, .tall][n]? := by
  match n with
  | 0 | 1 | 2 | 3 => rfl
  | _ + 4 => rfl

theorem pumpItem_accepted (length : body.length = 38)
    (h : itemField body 0 ≤ 250000 ∧ itemField body 1 ≤ 1000 ∧ 50 ≤ itemField body 2 ∧ itemField body 2 ≤ 500 ∧
      10 ≤ itemField body 3 ∧ itemField body 3 ≤ 1000 ∧ 10 ≤ itemField body 4 ∧ itemField body 4 ≤ 1000 ∧
      10 ≤ itemField body 5 ∧ itemField body 5 ≤ 1000 ∧ itemField body 6 ≤ 3 ∧ itemField body 7 ≤ 32000 ∧
      itemField body 8 ≤ 1000) :
    ∃ k, some k = [WindClass.none, .low, .mid, .tall][itemField body 6]? ∧
      pumpItem body = some ⟨itemField body 0, itemField body 1, itemField body 2, itemField body 3, itemField body 4,
        itemField body 5, k, itemField body 7, itemField body 8⟩ := by
  obtain ⟨h0, h1, h2, h2', h3, h3', h4, h4', h5, h5', h6, h7, h8⟩ := h
  have hk := List.getElem?_eq_getElem (l := [WindClass.none, .low, .mid, .tall]) (show itemField body 6 < 4 by omega)
  refine ⟨_, hk.symm, ?_⟩
  simp only [pumpItem, windClassOf_eq, hk]
  simp [inRange, *]

theorem pumpItem_refused (h : body.length ≠ 38 ∨ 250000 < itemField body 0 ∨ 1000 < itemField body 1 ∨ itemField body 2 < 50 ∨
      500 < itemField body 2 ∨ itemField body 3 < 10 ∨ 1000 < itemField body 3 ∨ itemField body 4 < 10 ∨
      1000 < itemField body 4 ∨ itemField body 5 < 10 ∨ 1000 < itemField body 5 ∨ 3 < itemField body 6 ∨
      32000 < itemField body 7 ∨ 1000 < itemField body 8) : pumpItem body = none := by
  simp only [pumpItem, windClassOf_eq]
  split
  · rename_i k hk
    have h6 : itemField body 6 < 4 := (List.getElem?_eq_some_iff.mp hk).1
    refine if_neg fun ok => ?_
    simp [inRange] at ok
    omega
  · rfl

/-! ### Jet items -/

theorem jetModeOf_eq {n : Nat} (h : n ≤ 1) : jetModeOf n = some (if n = 0 then .onOff else .proportional) := by
  match n, h with
  | 0, _ | 1, _ => rfl

theorem jetModeOf_eq_none {n : Nat} (h : 1 < n) : jetModeOf n = none := by
  match n, h with
  | _ + 2, _ => rfl

theorem supplyOf_pump (i : Pump) : supplyOf i.val = some (some i) := by
  rw [supplyOf, if_neg (by have := i.isLt; simp [Config.count32Max]; omega), pumpOf, dif_pos i.isLt]
  rfl

theorem supplyOf_eq_none {n : Nat} (great : 15 < n) (h : n ≠ 0xFFFFFFFF) : supplyOf n = none := by
  rw [supplyOf, if_neg (show n ≠ Config.count32Max from h), pumpOf, dif_neg (by omega)]
  rfl

theorem jetItem_accepted (length : body.length = 14) (mode : itemField body 0 ≤ 1)
    (supply : itemField body 1 ≤ 15 ∨ itemField body 1 = 0xFFFFFFFF) (rest : itemField body 2 ≤ 1000) :
    ∃ e : JetEntry, jetItem body = some e ∧ e.rest = itemField body 2 ∧
      e.mode = (if itemField body 0 = 0 then .onOff else .proportional) ∧ supplyOf (itemField body 1) = some e.supply := by
  obtain ⟨p, hp⟩ : ∃ p, supplyOf (itemField body 1) = some p := by
    rcases supply with pump | none_
    · exact ⟨_, supplyOf_pump ⟨itemField body 1, by omega⟩⟩
    · exact ⟨none, by rw [none_]; rfl⟩
  refine ⟨⟨if itemField body 0 = 0 then .onOff else .proportional, p, itemField body 2⟩, ?_, rfl, rfl, hp⟩
  simp [jetItem, jetModeOf_eq mode, hp, length, inRange, rest]

theorem jetItem_refused (h : body.length ≠ 14 ∨ 1 < itemField body 0 ∨ (15 < itemField body 1 ∧ itemField body 1 ≠ 0xFFFFFFFF) ∨
    1000 < itemField body 2) : jetItem body = none := by
  unfold jetItem
  split
  · rename_i m p hm hp
    refine if_neg fun ok => ?_
    simp [inRange] at ok
    rcases h with h | h | ⟨great, h⟩ | h
    · exact h ok.1
    · rw [jetModeOf_eq_none h] at hm; cases hm
    · rw [supplyOf_eq_none great h] at hp; cases hp
    · omega
  · rfl

/-! ### Fixture items -/

theorem emittersOf_eq {n : Nat} (h : n ≤ 1) : emittersOf n = some (if n = 0 then .rgb else .rgbw) := by
  match n, h with
  | 0, _ | 1, _ => rfl

theorem emittersOf_eq_none {n : Nat} (h : 1 < n) : emittersOf n = none := by
  match n, h with
  | _ + 2, _ => rfl

theorem whiteModeOf_eq {n : Nat} (h : n ≤ 1) : whiteModeOf n = some (if n = 0 then .direct else .auto) := by
  match n, h with
  | 0, _ | 1, _ => rfl

theorem whiteModeOf_eq_none {n : Nat} (h : 1 < n) : whiteModeOf n = none := by
  match n, h with
  | _ + 2, _ => rfl

theorem immersionOf_eq {n : Nat} (h : n ≤ 5000 ∨ n = 0xFFFFFFFF) :
    immersionOf n = some (if n = 0xFFFFFFFF then none else some n) := by
  unfold immersionOf Config.count32Max
  split
  · rfl
  · exact if_pos (h.resolve_right ‹_›)

theorem immersionOf_eq_none {n : Nat} (great : 5000 < n) (h : n ≠ 0xFFFFFFFF) : immersionOf n = none := by
  rw [immersionOf, if_neg (show n ≠ Config.count32Max from h), if_neg (by omega)]

theorem fixtureItem_accepted (length : body.length = 28) (emitters : itemField body 0 ≤ 1) (white : itemField body 1 ≤ 1)
    (immersion : itemField body 2 ≤ 5000 ∨ itemField body 2 = 0xFFFFFFFF) (cap : itemField body 3 ≤ 255) :
    fixtureItem body = some ⟨if itemField body 0 = 0 then .rgb else .rgbw, if itemField body 1 = 0 then .direct else .auto,
      if itemField body 2 = 0xFFFFFFFF then none else some (itemField body 2), itemField body 3, colourField body 18,
      colourField body 23⟩ := by
  simp [fixtureItem, emittersOf_eq emitters, whiteModeOf_eq white, immersionOf_eq immersion, length, inRange, cap]

theorem fixtureItem_refused (h : body.length ≠ 28 ∨ 1 < itemField body 0 ∨ 1 < itemField body 1 ∨
    (5000 < itemField body 2 ∧ itemField body 2 ≠ 0xFFFFFFFF) ∨ 255 < itemField body 3) : fixtureItem body = none := by
  unfold fixtureItem
  split
  · rename_i e m d he hm hd
    refine if_neg fun ok => ?_
    simp [inRange] at ok
    rcases h with h | h | h | ⟨great, h⟩ | h
    · exact h ok.1
    · rw [emittersOf_eq_none h] at he; cases he
    · rw [whiteModeOf_eq_none h] at hm; cases hm
    · rw [immersionOf_eq_none great h] at hd; cases hd
    · omega
  · rfl

/-- The ten bytes of a fixture item's two colours (R189). -/
theorem fixture_colours (length : body.length = 28) : (body.drop 18).map BitVec.toNat =
    [field body 18 1, field body 19 1, field body 20 1, field body 21 1, field body 22 1, field body 23 1, field body 24 1,
      field body 25 1, field body 26 1, field body 27 1] :=
  map_drop_eq_fields (first := 18) (n := 10) length

/-! ### Wind curve items -/

theorem curveItem_accepted (length : body.length = 14) (ws : itemField body 0 ≤ 600) (wf : itemField body 1 ≤ 600)
    (floor : itemField body 2 ≤ 1000) : curveItem body = some ⟨itemField body 0, itemField body 1, itemField body 2⟩ := by
  simp [curveItem, length, inRange, ws, wf, floor]

theorem curveItem_refused (h : body.length ≠ 14 ∨ 600 < itemField body 0 ∨ 600 < itemField body 1 ∨ 1000 < itemField body 2) :
    curveItem body = none := by
  refine if_neg fun ok => ?_
  simp [inRange] at ok
  omega

/-! ### The slot table item -/

theorem slotOf_isSome (n : Nat) : (slotOf n).isSome = true ↔ n < 28 ∨ n = 255 := by
  unfold slotOf
  split
  · simp [*]
  · split <;> simp [*]

theorem slotOf_group (g : Group) : slotOf g.val = some (some g) := dif_pos g.isLt

/-- The forty bytes of a slot table item, entry by entry (R189). -/
theorem slotBytes_all (length : body.length = 42) : ((body.drop 2).all fun b => (slotOf b.toNat).isSome) = true ↔
    ∀ n : Slot, field body (2 + n.val) 1 < 28 ∨ field body (2 + n.val) 1 = 255 := by
  have bytes : ((body.drop 2).all fun b => (slotOf b.toNat).isSome) =
      ((body.drop 2).map BitVec.toNat).all fun n => (slotOf n).isSome := by rw [List.all_map]; rfl
  rw [bytes, map_drop_eq_fields (first := 2) (n := 40) length]
  simp only [List.all_map, List.all_eq_true, List.mem_range, Function.comp_apply, slotOf_isSome]
  exact ⟨fun h n => h n n.isLt, fun h n hn => h ⟨n, hn⟩⟩

theorem slotsItem_accepted (length : body.length = 42)
    (h : ∀ n : Slot, field body (2 + n.val) 1 < 28 ∨ field body (2 + n.val) 1 = 255) :
    slotsItem body = some (tabulate fun n => (slotOf (field body (2 + n.val) 1)).getD none) := by
  rw [slotsItem, (slotBytes_all length).mpr h]
  simp [length]

theorem slotsItem_refused (h : body.length ≠ 42 ∨ ∃ n : Slot, 28 ≤ field body (2 + n.val) 1 ∧ field body (2 + n.val) 1 ≠ 255) :
    slotsItem body = none := by
  refine if_neg fun ok => ?_
  obtain ⟨length, all⟩ := (Bool.and_eq_true _ _).mp ok
  have length := of_decide_eq_true length
  obtain ⟨n, great, other⟩ := h.resolve_left (not_not_intro length)
  rcases (slotBytes_all length).mp all n with group | null
  · omega
  · exact other null

/-! ### The limits item -/

/-- The limits that a body carries, in the order of the table of R189. -/
def limitsOf (f : Nat → Nat) : Limits :=
  ⟨f 0, f 1, f 2, f 3, f 4, f 5, f 6, f 7, f 8, f 9, f 10, f 11, f 12, f 13, f 14, f 15⟩

/-- The bounds of the limits (R189). -/
def limitBounds : List (Nat × Nat) := [(0, 65535), (0, 65535), (0, 12960), (0, 96000), (1000, 60000), (0, 60000), (500, 10000),
  (0, 10000), (0, 10000), (0, 10000), (1, 200), (1000, 60000), (1000, 60000), (0, 4950), (1000, 30000), (0, 2048)]

/-- Sixteen conditions, one for each limit. -/
theorem forall_lt_sixteen (P : Nat → Prop) : (∀ n, n < 16 → P n) ↔ P 0 ∧ P 1 ∧ P 2 ∧ P 3 ∧ P 4 ∧ P 5 ∧ P 6 ∧ P 7 ∧ P 8 ∧ P 9 ∧
    P 10 ∧ P 11 ∧ P 12 ∧ P 13 ∧ P 14 ∧ P 15 := by
  simp only [Nat.forall_lt_succ_right, Nat.not_lt_zero, false_implies, implies_true, true_and, and_assoc]

/-- The range tests of the limits item (R189). -/
def LimitsInRange (f : Nat → Nat) : Prop :=
  ∀ n, n < 16 → (limitBounds.getD n (0, 0)).1 ≤ f n ∧ f n ≤ (limitBounds.getD n (0, 0)).2

theorem limitsItem_eq_some_iff {l : Limits} : limitsItem body = some l ↔
    body.length = 66 ∧ LimitsInRange (itemField body) ∧ limitsOf (itemField body) = l := by
  unfold LimitsInRange
  rw [forall_lt_sixteen]
  simp only [limitsItem, inRange, limitBounds, limitsOf, Option.ite_none_right_eq_some, Option.some.injEq, Bool.and_eq_true,
    decide_eq_true_eq, and_assoc, List.getD_cons_zero, List.getD_cons_succ]

theorem limitsItem_refused (h : body.length ≠ 66 ∨ ¬ LimitsInRange (itemField body)) : limitsItem body = none := by
  refine Option.eq_none_iff_forall_ne_some.mpr fun l item => ?_
  obtain ⟨length, range, -⟩ := limitsItem_eq_some_iff.mp item
  exact h.elim (absurd length) (absurd range)

/-! ### Bodies that name no item -/

/-- A body with an unknown item code, an index that names nothing or a length that is not its item's (R189). -/
def NamesNoItem (code index length : Nat) : Prop :=
  code = 0 ∨ 6 < code ∨ (code = 1 ∧ (15 < index ∨ length ≠ 38)) ∨ (code = 2 ∧ (127 < index ∨ length ≠ 14)) ∨
    (code = 3 ∧ (191 < index ∨ length ≠ 28)) ∨ (code = 4 ∧ (index < 1 ∨ 3 < index ∨ length ≠ 14)) ∨
    (code = 5 ∧ (index ≠ 0 ∨ length ≠ 42)) ∨ (code = 6 ∧ (index ≠ 0 ∨ length ≠ 66))

theorem Tables.write_of_namesNoItem (h : NamesNoItem (field body 0 1) (field body 1 1) body.length) : x.write body = none := by
  rcases h with code | code | ⟨code, h⟩ | ⟨code, h⟩ | ⟨code, h⟩ | ⟨code, h⟩ | ⟨code, h⟩ | ⟨code, h⟩
  · simp [Tables.write, code]
  · unfold Tables.write
    simp only
    split <;> first | omega | rfl
  all_goals
    unfold Tables.write
    simp only [code]
    split
  · rw [pumpItem_refused (by omega)]; rfl
  · rfl
  · rw [jetItem_refused (by omega)]; rfl
  · rfl
  · rw [fixtureItem_refused (by omega)]; rfl
  · rfl
  · rw [curveItem_refused (by omega)]; rfl
  · rw [curveItem_refused (by omega)]; rfl
  · rw [curveItem_refused (by omega)]; rfl
  · rfl
  · rw [slotsItem_refused (by omega)]; rfl
  · rfl
  · rw [limitsItem_refused (by omega)]; rfl
  · rfl

end configWrite

/-- Settles O58: the tests of CONFIG_OPEN in their order, and CONFIG_WRITE item by item. -/
theorem theConfigurationIsOpenedAndWritten : Obligations.TheConfigurationIsOpenedAndWritten := by
  intro s tag body
  refine ⟨fun h => ⟨fun carries => .of_reply rfl h ?_, ?_⟩, fun h => ⟨fun closed => .of_reply rfl h ?_, ?_⟩⟩
  · rw [configOpenRequest, if_pos carries]; rfl
  · rintro rfl
    refine ⟨fun opened => .of_reply rfl h ?_, fun closed idle unconfigured => .of_reply rfl h ?_, fun closed quiet =>
      ⟨fun i hi lower => .of_reply rfl h ?_, fun clear =>
      ⟨(s.withCfg ⟨.opened, s.tables⟩).seqOpen, .of_reply rfl h ?_, State.openConfig_cfg .., ?_⟩⟩⟩
    · rw [configOpenRequest, if_neg (by simp), if_pos opened]
    · rw [configOpenRequest, if_neg (by simp), if_neg closed, if_pos ⟨idle, unconfigured⟩]; rfl
    · exact configOpenRequest_blocked closed quiet
        (Fin.find?_eq_some_iff.mpr ⟨State.blocks_eq_true.mpr hi, fun j hj => State.blocks_eq_false.mpr (lower j hj)⟩)
    · exact configOpenRequest_accepted closed quiet (Fin.find?_eq_none_iff.mpr fun i => State.blocks_eq_false.mpr (clear i))
    · rw [State.seqOpen_seq]
      simp
  · rw [configWriteRequest, if_pos closed, refuse]
  intro Stores Refused f code index x opened stores refused hf hcode hindex hx
  obtain rfl : f = itemField body := funext hf
  subst hcode hindex hx
  have keep {y : Tables} (length : 2 ≤ body.length) (written : s.cfg.held.write body = some y) : Stores y :=
    (stores y).mpr (configWrite_stores h opened length written)
  have turn (none_ : s.cfg.held.write body = none) : Refused := refused.mpr (configWrite_refuses h opened none_)
  refine ⟨fun nothing => turn (Tables.write_of_namesNoItem nothing), fun i code index length => ⟨fun ok => ?_, fun bad => turn ?_⟩,
    fun j code index length => ⟨fun ⟨mode, supply, rest⟩ => ?_, fun bad => turn ?_⟩,
    fun l code index length => ⟨fun ⟨emitters, white, immersion, cap⟩ => ?_, fun bad => turn ?_⟩,
    fun code low high length =>
      ⟨fun ⟨ws, wf, floor⟩ => ⟨fun index => ?_, fun index => ?_, fun index => ?_⟩, fun bad => turn ?_⟩,
    fun code index length => ⟨fun ok => ?_, fun n group null => turn ?_⟩,
    fun code index length bounds hbounds => ⟨fun ok => ?_, fun n hn bad => turn ?_⟩⟩
  · obtain ⟨k, hk, item⟩ := pumpItem_accepted length ok
    exact ⟨_, keep (by omega) ((Tables.write_pump code index).trans (by rw [item]; rfl)), rfl, hk⟩
  · rw [Tables.write_pump code index, pumpItem_refused (.inr bad)]; rfl
  · obtain ⟨e, item, hrest, hmode, hsupply⟩ := jetItem_accepted length mode supply rest
    refine ⟨e, keep (by omega) ((Tables.write_jet code index).trans (by rw [item]; rfl)), hrest, hmode, fun none_ => ?_, fun i hi => ?_⟩
    · rw [none_] at hsupply; exact (Option.some.inj hsupply).symm
    · rw [hi, supplyOf_pump] at hsupply; exact (Option.some.inj hsupply).symm
  · rw [Tables.write_jet code index, jetItem_refused (.inr bad)]; rfl
  · have item := fixtureItem_accepted length emitters white immersion cap
    exact ⟨_, keep (by omega) ((Tables.write_fixture code index).trans (by rw [item]; rfl)), rfl, rfl, rfl, rfl,
      (fixture_colours length).symm⟩
  · rw [Tables.write_fixture code index, fixtureItem_refused (.inr bad)]; rfl
  · exact keep (by omega) (by rw [Tables.write_low code index, curveItem_accepted length ws wf floor]; rfl)
  · exact keep (by omega) (by rw [Tables.write_mid code index, curveItem_accepted length ws wf floor]; rfl)
  · exact keep (by omega) (by rw [Tables.write_tall code index, curveItem_accepted length ws wf floor]; rfl)
  · exact Tables.write_curve_refused code (curveItem_refused (.inr bad))
  · refine ⟨_, keep (by omega) ((Tables.write_slots code index).trans (by rw [slotsItem_accepted length ok]; rfl)), fun n => ?_⟩
    rw [Fin.getElem_fin, getElem_tabulate]
    refine ⟨fun null => ?_, fun g group => ?_⟩
    · simp only [null]; rfl
    · simp only [group, slotOf_group]; rfl
  · rw [Tables.write_slots code index, slotsItem_refused (.inr ⟨n, group, null⟩)]; rfl
  · subst hbounds
    have item := limitsItem_eq_some_iff.mpr ⟨length, ok, rfl⟩
    exact ⟨_, keep (by omega) ((Tables.write_limits code index).trans (by rw [item]; rfl)), rfl⟩
  · subst hbounds
    rw [Tables.write_limits code index, limitsItem_refused (.inr fun range => ?_)]
    · rfl
    · have := range n hn
      exact absurd this (by unfold limitBounds; omega)

end Sys2Proof.Machine
end

section
namespace Sys2Proof.Machine

/-! ## The six checks of a commit (R79, R190) -/

section checks

variable {x : Tables}

/-- The group has an entry of the slot table (check 1). -/
def Tables.Names (x : Tables) (g : Group) : Prop := ∃ n : Slot, x.slots[n] = some g

/-- Two entries of one fixture line stand too close (check 2, R79). -/
def Tables.Crowds (x : Tables) (m n : Slot) : Prop :=
  m < n ∧ ∃ g h : Group, x.slots[m] = some g ∧ x.slots[n] = some h ∧ 20 ≤ g.val ∧ 20 ≤ h.val ∧ (g.val < 24 ↔ h.val < 24) ∧
    (n.val - m.val < 3 ∨ 40 - (n.val - m.val) < 3)

theorem Tables.contains_iff_names (g : Group) : x.slots.toList.contains (some g) = true ↔ x.Names g := by
  rw [List.contains_iff_mem, List.mem_iff_getElem, Tables.Names]
  constructor
  · rintro ⟨n, bound, h⟩
    exact ⟨⟨n, by simpa using bound⟩, by simpa using h⟩
  · rintro ⟨n, h⟩
    exact ⟨n.val, by simp, by simpa using h⟩

theorem Tables.absent_iff (g : Group) : (!x.slots.toList.contains (some g)) = true ↔ ¬ x.Names g := by
  rw [Bool.not_eq_true', ← Bool.not_eq_true, Tables.contains_iff_names]

theorem Tables.present_iff (g : Group) : (!x.slots.toList.contains (some g)) = false ↔ x.Names g := by
  rw [Bool.not_eq_false', Tables.contains_iff_names]

theorem Tables.missingGroup_eq_some {g : Group} (missing : ¬ x.Names g) (lower : ∀ h, h < g → x.Names h) :
    x.missingGroup = some g := by
  rw [Tables.missingGroup, ← Fin.find?_eq_find?_finRange, Fin.find?_eq_some_iff]
  exact ⟨(Tables.absent_iff g).mpr missing, fun h hg => (Tables.present_iff h).mpr (lower h hg)⟩

theorem Tables.missingGroup_eq_none (h : ∀ g, x.Names g) : x.missingGroup = none := by
  rw [Tables.missingGroup, ← Fin.find?_eq_find?_finRange, Fin.find?_eq_none_iff]
  exact fun g => (Tables.present_iff g).mpr (h g)

theorem lineOf_eq_fixtureA (g : Group) : lineOf g = .fixtureA ↔ 20 ≤ g.val ∧ g.val < 24 := by
  unfold lineOf
  split_ifs <;> simp <;> omega

theorem lineOf_eq_fixtureB (g : Group) : lineOf g = .fixtureB ↔ 24 ≤ g.val := by
  unfold lineOf
  split_ifs <;> simp <;> omega

/-- The groups of one fixture line (R78). -/
theorem sameFixtureLine_iff (g h : Group) :
    sameFixtureLine (some g) (some h) = true ↔ 20 ≤ g.val ∧ 20 ≤ h.val ∧ (g.val < 24 ↔ h.val < 24) := by
  have both : sameFixtureLine (some g) (some h) = true ↔
      (lineOf g = .fixtureA ∧ lineOf h = .fixtureA) ∨ (lineOf g = .fixtureB ∧ lineOf h = .fixtureB) := by
    simp only [sameFixtureLine, Bool.and_eq_true, Bool.or_eq_true, decide_eq_true_eq]
    grind
  rw [both, lineOf_eq_fixtureA, lineOf_eq_fixtureA, lineOf_eq_fixtureB, lineOf_eq_fixtureB]
  omega

theorem sameFixtureLine_some {a b : Option Group} (h : sameFixtureLine a b = true) : ∃ g k, a = some g ∧ b = some k := by
  match a, b, h with
  | some g, some k, _ => exact ⟨g, k, rfl, rfl⟩

theorem cyclicDistance_lt {m n : Nat} (h : m < n) : cyclicDistance m n < 3 ↔ n - m < 3 ∨ 40 - (n - m) < 3 := by
  rw [cyclicDistance, max_eq_right h.le, min_eq_left h.le, min_lt_iff]

theorem Tables.pairFails_iff (m n : Slot) : x.pairFails m n = true ↔ x.Crowds m n := by
  simp only [Tables.pairFails, Bool.and_eq_true, decide_eq_true_eq, Tables.Crowds]
  constructor
  · rintro ⟨⟨order, line⟩, close⟩
    obtain ⟨g, h, hg, hh⟩ := sameFixtureLine_some line
    rw [hg, hh, sameFixtureLine_iff] at line
    exact ⟨order, g, h, hg, hh, line.1, line.2.1, line.2.2, (cyclicDistance_lt order).mp close⟩
  · rintro ⟨order, g, h, hg, hh, low, high, same, close⟩
    rw [hg, hh, sameFixtureLine_iff]
    exact ⟨⟨order, low, high, same⟩, (cyclicDistance_lt order).mpr close⟩

/-- A slot is the lower one of a crowded pair exactly when check 2 finds it. -/
theorem Tables.crowds_any (m : Slot) : ((List.finRange 40).any fun n => x.pairFails m n) = true ↔ ∃ n, x.Crowds m n := by
  simp [List.any_eq_true, Tables.pairFails_iff]

theorem Tables.crowdedSlot_eq_some {m n : Slot} (h : x.Crowds m n) (lower : ∀ k, k < m → ∀ l, ¬ x.Crowds k l) :
    x.crowdedSlot = some m := by
  rw [Tables.crowdedSlot, ← Fin.find?_eq_find?_finRange, Fin.find?_eq_some_iff]
  refine ⟨(Tables.crowds_any m).mpr ⟨n, h⟩, fun k hk => Bool.eq_false_iff.mpr fun fails => ?_⟩
  obtain ⟨l, crowds⟩ := (Tables.crowds_any k).mp fails
  exact lower k hk l crowds

theorem Tables.crowdedSlot_eq_none (h : ∀ m n, ¬ x.Crowds m n) : x.crowdedSlot = none := by
  rw [Tables.crowdedSlot, ← Fin.find?_eq_find?_finRange, Fin.find?_eq_none_iff]
  refine fun m => Bool.eq_false_iff.mpr fun fails => ?_
  obtain ⟨n, crowds⟩ := (Tables.crowds_any m).mp fails
  exact h m n crowds

theorem Tables.badCurve_eq_none (h : x.low.ws < x.low.wf ∧ x.mid.ws < x.mid.wf ∧ x.tall.ws < x.tall.wf) : x.badCurve = none := by
  obtain ⟨low, mid, tall⟩ := h
  rw [Tables.badCurve, if_neg (Nat.not_le.mpr low), if_neg (Nat.not_le.mpr mid), if_neg (Nat.not_le.mpr tall)]

theorem Tables.badPump_eq_some {i : Pump} (h : x.pumps[i].ps < x.pumps[i].mr)
    (lower : ∀ j : Pump, j < i → x.pumps[j].mr ≤ x.pumps[j].ps) : x.badPump = some i := by
  rw [Tables.badPump, ← Fin.find?_eq_find?_finRange, Fin.find?_eq_some_iff]
  exact ⟨decide_eq_true h, fun j hj => decide_eq_false (Nat.not_lt.mpr (lower j hj))⟩

theorem Tables.badPump_eq_none (h : ∀ i : Pump, x.pumps[i].mr ≤ x.pumps[i].ps) : x.badPump = none := by
  rw [Tables.badPump, ← Fin.find?_eq_find?_finRange, Fin.find?_eq_none_iff]
  exact fun i => decide_eq_false (Nat.not_lt.mpr (h i))

/-! ### The first check that fails -/

theorem Tables.failedCheck_group {g : Group} (h : x.missingGroup = some g) : x.failedCheck = some ⟨1, 5, g.val⟩ := by
  rw [Tables.failedCheck, h]

variable (groups : x.missingGroup = none)

include groups

theorem Tables.failedCheck_slot {n : Slot} (h : x.crowdedSlot = some n) : x.failedCheck = some ⟨2, 5, n.val⟩ := by
  rw [Tables.failedCheck, groups, h]

variable (slots : x.crowdedSlot = none)

include slots

theorem Tables.failedCheck_curve {k : Nat} (h : x.badCurve = some k) : x.failedCheck = some ⟨3, 4, k⟩ := by
  rw [Tables.failedCheck, groups, slots, h]

variable (curves : x.badCurve = none)

include curves

theorem Tables.failedCheck_pump {i : Pump} (h : x.badPump = some i) : x.failedCheck = some ⟨4, 1, i.val⟩ := by
  rw [Tables.failedCheck, groups, slots, curves, h]

/-- What is left of the checks when the first four pass: the levels of the limits. -/
theorem Tables.failedCheck_levels (pumps : x.badPump = none) : x.failedCheck =
    if 15360 < x.limits.startLevel then some ⟨5, 6, 0⟩
    else if x.limits.resumeLevel < 1 ∨ 15360 < x.limits.resumeLevel then some ⟨6, 6, 0⟩ else none := by
  rw [Tables.failedCheck, groups, slots, curves, pumps]

end checks

/-- Tables that meet the six conditions fail no check. -/
theorem Tables.Committable.failedCheck {x : Tables} (h : x.Committable) : x.failedCheck = none := by
  obtain ⟨groups, spacing, curves, pumps, start, resumeLow, resumeHigh⟩ := h
  rw [Tables.failedCheck_levels (Tables.missingGroup_eq_none groups) ?_ (Tables.badCurve_eq_none curves) (Tables.badPump_eq_none pumps),
    if_neg (by omega), if_neg (by omega)]
  refine Tables.crowdedSlot_eq_none fun m n ⟨order, g, k, hg, hk, low, high, same, close⟩ => ?_
  have := spacing m n g k order hg hk low high same
  omega

/-! ## The installation of a commit (R56, R90, R116, R191) -/

section install

variable (s : State)

/-- The governor's values after the installation, before the budget test (R116). -/
def State.recomputed : State :=
  let a := (s.withCfg { s.cfg with state := .valid }).withTables s.cfg.held
  (a.withFsc { a.fsc with pointer := 0 }).recomputeShares.updateAllowed

theorem State.tablesInstalled_eq : s.tablesInstalled = s.recomputed.budgetTest.clearCues.restShown.poolLowTest := rfl

theorem State.recomputed_pump (i : Pump) : s.recomputed.pgv.pumps[i] = { s.pgv.pumps[i] with
    share := shareFor s.cfg.held.pumps[i].prated s.dlc[i] s.pgv.pumps[i].commanded
    allowed := allowedAfter (s.cfg.held.ceiling i s.windNow) s.cfg.held.limits.air s.pgv.pumps[i].allowed } := by
  simp only [State.recomputed, State.updateAllowed, State.recomputeShares, State.withPgv_pgv, Fin.getElem_fin, getElem_tabulate]
  rfl

/-- Equal shares have equal totals (R97). -/
theorem ledgerTotal_congr {p q : Vector PumpState 16} (h : ∀ i : Pump, p[i].share = q[i].share) : ledgerTotal p = ledgerTotal q := by
  rw [ledgerTotal, ledgerTotal, toList_eq_ofFn, toList_eq_ofFn, List.map_ofFn, List.map_ofFn]
  exact congrArg _ (congrArg _ (funext h))

/-- The update of the allowed speeds leaves the shares, and so the total (R97, R102). -/
theorem State.recomputed_total : s.recomputed.pgv.total = ledgerTotal s.recomputed.pgv.pumps := by
  refine ledgerTotal_congr fun i => ?_
  simp [State.recomputed, State.updateAllowed, State.recomputeShares]

theorem State.tablesInstalled_pgv : s.tablesInstalled.pgv = s.recomputed.budgetTest.pgv := by
  simp [State.tablesInstalled_eq, State.clearCues, State.restShown]

theorem State.tablesInstalled_tables : s.tablesInstalled.tables = s.cfg.held := by
  simp [State.tablesInstalled_eq, State.clearCues, State.restShown]
  rfl

theorem State.tablesInstalled_clock : s.tablesInstalled.clock = s.clock := by
  simp [State.tablesInstalled_eq, State.clearCues, State.restShown]
  rfl

theorem State.tablesInstalled_fsc : s.tablesInstalled.fsc = { s.fsc with pointer := 0 } := by
  simp [State.tablesInstalled_eq, State.clearCues, State.restShown]
  rfl

/-- The cue store after the installation: no cue, every show value at its new rest value (R56). -/
theorem State.tablesInstalled_cst : s.tablesInstalled.cst.lists = uniform 336 [] ∧ s.tablesInstalled.cst.free = 4096 ∧
    s.tablesInstalled.cst.shown = tabulate s.cfg.held.restValue ∧ s.tablesInstalled.cst.skipped = s.cst.skipped := by
  simp [State.tablesInstalled_eq, State.clearCues, State.restShown, Config.poolSize]
  exact ⟨rfl, rfl⟩

/-- The free-pool-low test sees of the state the flag, the limit and the clock. -/
theorem State.PoolTested.congr {t u : State} {before after : MasterPort} {free : Nat} {armed : Bool}
    (h : t.PoolTested before free armed after) (flag : u.cst.poolLowArmed = t.cst.poolLowArmed)
    (limits : u.tables.limits = t.tables.limits) (clock : u.clock = t.clock) : u.PoolTested before free armed after := by
  unfold State.PoolTested
  rw [flag, limits, clock]
  exact h

/-- The budget test sees of the state the flag, the budget and the clock. -/
theorem State.BudgetTested.congr {t u : State} {before after : MasterPort} {total : Nat} {excess : Bool}
    (h : t.BudgetTested before total excess after) (flag : u.pgv.excess = t.pgv.excess)
    (budget : u.pgv.budget = t.pgv.budget) (clock : u.clock = t.clock) : u.BudgetTested before total excess after := by
  unfold State.BudgetTested
  rw [flag, budget, clock]
  exact h

/-- The free-pool-low test of the installation, with the new limits (R46, R56). -/
theorem State.tablesInstalled_poolTested : (s.withTables s.cfg.held).PoolTested s.mpShow 4096 s.tablesInstalled.cst.poolLowArmed
    s.tablesInstalled.mpShow := by
  let u := s.recomputed.budgetTest.clearCues.restShown
  have port : u.mpShow = s.mpShow := s.recomputed.budgetTest_mpShow
  have tested : u.PoolTested s.mpShow 4096 s.tablesInstalled.cst.poolLowArmed s.tablesInstalled.mpShow :=
    port ▸ u.poolLowTest_tested
  have flag : u.cst.poolLowArmed = s.cst.poolLowArmed := by
    show s.recomputed.budgetTest.cst.poolLowArmed = s.cst.poolLowArmed
    rw [State.budgetTest_cst]
    rfl
  have tables : u.tables = s.cfg.held := s.recomputed.budgetTest_tables
  have clock : u.clock = s.clock := s.recomputed.budgetTest_clock
  exact tested.congr flag.symm (by rw [tables]; rfl) clock.symm

/-- The budget test of the installation (R112, R116). -/
theorem State.tablesInstalled_budgetTested :
    s.BudgetTested s.mpPlant s.tablesInstalled.pgv.total s.tablesInstalled.pgv.excess s.tablesInstalled.mpPlant := by
  have port : s.tablesInstalled.mpPlant = s.recomputed.budgetTest.mpPlant := State.poolLowTest_mpPlant _
  rw [port, State.tablesInstalled_pgv, State.budgetTest_total]
  exact s.recomputed.budgetTest_tested.congr rfl rfl rfl

theorem State.seqCommit_seq : s.seqCommit.seq =
    s.seq.become { s.seq with showState := .idle, idleCause := s.seq.resetOrigin.idle } := State.seqTake_seq ..

/-- A show leaves UNCONFIGURED with SHOW_STATE (R5, R18). -/
theorem State.seqCommit_port {s : State} (h : s.seq.showState = .unconfigured) (p : Port) :
    s.seqCommit.port p = (s.port p).place ⟨.showState, 0, s.plu.position, s.clock.now⟩ := by
  rw [State.seqCommit, State.seqTake_port, if_neg]
  simp [Seq.shownFields, h]

end install

/-! ## CONFIG_COMMIT (R190, R191) -/

theorem configCommit_fails {s : State} {tag : Byte} {k : FailedCheck} (h : s.InExecution .plantPort 0x42 tag [])
    (opened : s.cfg.state = .opened) (failed : s.cfg.held.failedCheck = some k) :
    Answers .configCommit s .plantPort 0x42 tag [] s .badConfig
      [BitVec.ofNat 8 k.check, BitVec.ofNat 8 k.item, BitVec.ofNat 8 k.index] := by
  refine .of_bodiless rfl h ?_
  rw [configCommitRequest, if_neg (by simp [opened]), failed]
  simp [bytes_one]

/-- Settles O59: the checks in their order, then the installation part by part. -/
theorem theCommitInstallsCheckedTables : Obligations.TheCommitInstallsCheckedTables := by
  intro s tag h
  refine ⟨fun closed => .of_bodiless rfl h ?_, ?_, fun opened passes => ?_⟩
  · rw [configCommitRequest, if_pos closed, refuse]
  · intro x Bad Named Crowded Curves Pumps opened hx bad named crowded curves pumps
    subst hx
    obtain rfl : Named = s.cfg.held.Names := funext fun g => propext (named g)
    obtain rfl : Crowded = s.cfg.held.Crowds := funext fun m => funext fun n => propext (crowded m n)
    have fails {k : FailedCheck} (failed : s.cfg.held.failedCheck = some k) :
        Bad [BitVec.ofNat 8 k.check, BitVec.ofNat 8 k.item, BitVec.ofNat 8 k.index] :=
      (bad _).mpr (configCommit_fails h opened failed)
    refine ⟨fun g missing lower => fails (Tables.failedCheck_group (Tables.missingGroup_eq_some missing lower)), fun all => ?_⟩
    have groups := Tables.missingGroup_eq_none all
    refine ⟨fun m n pair lower => fails (Tables.failedCheck_slot groups (Tables.crowdedSlot_eq_some pair lower)), fun spaced => ?_⟩
    have slots := Tables.crowdedSlot_eq_none spaced
    refine ⟨fun low => fails (Tables.failedCheck_curve groups slots ?_), fun low mid => fails (Tables.failedCheck_curve groups slots ?_),
      fun low mid tall => fails (Tables.failedCheck_curve groups slots ?_), fun ordered => ?_⟩
    · rw [Tables.badCurve, if_pos low]
    · rw [Tables.badCurve, if_neg (Nat.not_le.mpr low), if_pos mid]
    · rw [Tables.badCurve, if_neg (Nat.not_le.mpr low), if_neg (Nat.not_le.mpr mid), if_pos tall]
    have noCurve := Tables.badCurve_eq_none (curves.mp ordered)
    refine ⟨fun i low lower => fails (Tables.failedCheck_pump groups slots noCurve (Tables.badPump_eq_some low lower)), fun fits => ?_⟩
    have levels := Tables.failedCheck_levels groups slots noCurve (Tables.badPump_eq_none (pumps.mp fits))
    refine ⟨fun start => fails (k := ⟨5, 6, 0⟩) ?_, fun start resume => fails (k := ⟨6, 6, 0⟩) ?_⟩
    · rw [levels, if_pos start]
    · rw [levels, if_neg (Nat.not_lt.mpr start), if_pos resume]
  · refine ⟨s.install, s.tablesInstalled.mpShow, .of_bodiless rfl h ?_, ?_⟩
    · rw [configCommitRequest, if_neg (by simp [opened]), passes.failedCheck]
    obtain ⟨lists, free, shown, skipped⟩ := s.tablesInstalled_cst
    have pgv : s.install.pgv = s.recomputed.budgetTest.pgv := (State.seqTake_pgv ..).trans s.tablesInstalled_pgv
    have cst : s.install.cst = s.tablesInstalled.cst := State.seqTake_cst ..
    have noticed (unconfigured : s.seq.showState = .unconfigured) (p : Port) :
        s.install.port p = (s.tablesInstalled.port p).place ⟨.showState, 0, s.plu.position, s.clock.now⟩ := by
      rw [State.install_eq, State.seqCommit_port (by simpa using unconfigured), State.tablesInstalled_plu, State.tablesInstalled_clock]
    rw [cst, pgv, lists, shown, State.budgetTest_pumps, State.budgetTest_total, State.budgetTest_budget]
    refine ⟨(State.seqTake_tables ..).trans s.tablesInstalled_tables, (State.seqTake_cfg ..).trans s.tablesInstalled_cfg,
      (State.seqTake_fsc ..).trans s.tablesInstalled_fsc, fun c => ?_, free, s.tablesInstalled_poolTested,
      fun unconfigured => noticed unconfigured .showPort, skipped, ?_, ?_, fun i => ?_, s.recomputed_total, rfl,
      s.tablesInstalled.mpPlant, ?_, fun unconfigured => noticed unconfigured .plantPort⟩
    · simp only [Fin.getElem_fin, getElem_uniform, getElem_tabulate]
      exact ⟨trivial, trivial⟩
    · rw [State.install_eq, State.seqCommit_seq]; simp
    · rw [State.install_eq, State.seqCommit_seq]; simp; rfl
    · rw [State.recomputed_pump]
      refine ⟨rfl, rfl, rfl, ?_⟩
      rintro ceiling rfl
      rfl
    · have tested := s.tablesInstalled_budgetTested
      rwa [State.tablesInstalled_pgv, State.budgetTest_total] at tested

end Sys2Proof.Machine
end

section
namespace Sys2Proof.Machine

/-! ## Cold reset (R194) -/

/-- The state the model starts from is a state after cold reset. -/
theorem State.reset_eq_coldReset : State.reset = State.reset.coldReset := rfl

theorem exec_coldReset (s : State) : exec .coldReset s = .next s.coldReset := rfl

section defaults

variable (s : State)

theorem State.coldReset_channel (c : Channel) : s.coldReset.cst.lists[c] = [] ∧ s.coldReset.cha.records[c] = ⟨none, none, none⟩ ∧
    s.coldReset.cst.shown[c] = if c.val < 144 then .level 0 else .colour ⟨0, 0, 0, 0, 0⟩ :=
  ⟨getElem_uniform _ c.val c.isLt, getElem_uniform _ c.val c.isLt, getElem_tabulate coldValue c.val c.isLt⟩

theorem State.coldReset_pump (i : Pump) : s.coldReset.pgv.pumps[i] = ⟨1000, 0, 0, 0⟩ ∧ s.coldReset.dlc[i] = .cold :=
  ⟨getElem_uniform _ i.val i.isLt, getElem_uniform _ i.val i.isLt⟩

theorem defaultTables_pump (i : Pump) : defaultTables.pumps[i] = defaultPump := getElem_uniform _ i.val i.isLt
theorem defaultTables_jet (j : Jet) : defaultTables.jets[j] = defaultJet := getElem_uniform _ j.val j.isLt
theorem defaultTables_fixture (f : Fixture) : defaultTables.fixtures[f] = defaultFixture := getElem_uniform _ f.val f.isLt

end defaults

/-- Settles O3: block by block, for any state after cold reset. -/
theorem coldResetGivesTheChapterValues : Obligations.ColdResetGivesTheChapterValues := by
  intro s
  refine ⟨s.coldReset, exec_coldReset s, rfl, rfl, fun u hu => ?_⟩
  obtain ⟨r, rfl⟩ : ∃ r : State, u = r.coldReset := by
    rcases List.mem_pair.mp hu with rfl | rfl
    · exact ⟨s, rfl⟩
    · exact ⟨State.reset, rfl⟩
  refine ⟨⟨rfl, rfl, rfl, rfl, rfl, rfl, rfl, rfl, rfl, rfl, rfl, rfl⟩, ⟨rfl, rfl, rfl, rfl, rfl, rfl⟩,
    ⟨r.coldReset_channel, rfl, rfl, rfl, rfl⟩, ⟨rfl, rfl, fun l => by cases l <;> rfl, fun g => getElem_uniform _ g.val g.isLt⟩,
    ⟨r.coldReset_pump, rfl, rfl, rfl⟩, ⟨fun j => getElem_uniform _ j.val j.isLt, fun f => getElem_uniform _ f.val f.isLt⟩,
    ⟨rfl, rfl, rfl, rfl, rfl, rfl, rfl, rfl, rfl, rfl, rfl⟩, ⟨rfl, rfl⟩, fun x hx => ?_, fun p => ?_⟩
  · obtain rfl : x = defaultTables := by rcases List.mem_pair.mp hx with rfl | rfl <;> rfl
    exact ⟨defaultTables_pump, defaultTables_jet, defaultTables_fixture, rfl, rfl, rfl, rfl, rfl⟩
  · cases p <;> exact ⟨rfl, rfl, rfl, rfl, rfl, rfl, rfl, rfl, rfl, rfl, rfl, rfl⟩

/-! ## The laws of the device in the reset state -/

theorem State.reset_channel (c : Channel) : State.reset.cst.lists[c] = [] ∧ State.reset.cha.records[c] = ⟨none, none, none⟩ := by
  obtain ⟨list, record, -⟩ := State.reset.coldReset_channel c
  exact ⟨list, record⟩

theorem State.reset_pump (i : Pump) : State.reset.pgv.pumps[i] = ⟨1000, 0, 0, 0⟩ ∧ State.reset.dlc[i] = .cold :=
  State.reset.coldReset_pump i

theorem State.reset_poolLaw : State.reset.PoolLaw := by
  rw [State.PoolLaw, show State.reset.cst.lists = uniform 336 [] from rfl, listedCues_uniform_nil]
  rfl

theorem State.reset_cueLaw : State.reset.CueLaw := by
  intro c
  rw [(State.reset_channel c).1]
  exact ⟨.nil, by simp⟩

/-- No drive is PRESENT, so no pump takes power (R97). -/
theorem State.reset_ledgerLaw : State.reset.LedgerLaw := by
  refine ⟨?_, fun i => ?_⟩
  · decide
  · rw [State.ShareLaw, (State.reset_pump i).1, (State.reset_pump i).2]
    exact ⟨rfl, fun _ => rfl⟩

theorem State.reset_allowedLaw : State.reset.AllowedLaw := by
  intro i
  rw [(State.reset_pump i).1, show State.reset.tables.pumps[i] = defaultPump from defaultTables_pump i]
  exact le_refl 1000

theorem State.reset_driveLaws (i : Pump) : State.reset.dlc[i].AbsentLaw ∧ State.reset.dlc[i].FaultLaw := by
  rw [(State.reset_pump i).2]
  exact ⟨fun _ => ⟨rfl, rfl⟩, by decide, fun p h => by cases h⟩

theorem claimsIn_uniform_empty : claimsIn (uniform 336 .empty) = 0 := by
  rw [claimsIn, uniform, Vector.toList_replicate, List.filter_replicate]
  rfl

theorem State.reset_ownershipLaw : State.reset.cha.OwnershipLaw := by
  refine ⟨fun c claimed => ?_, ?_, Nat.zero_le _⟩
  · rw [(State.reset_channel c).2]
  · rw [show State.reset.cha.records = uniform 336 .empty from rfl, claimsIn_uniform_empty]
    rfl

theorem MasterPort.cold_laws : MasterPort.cold.NoticeLaw ∧ MasterPort.cold.CapacityLaw ∧ MasterPort.cold.AttentionLaw := by
  refine ⟨⟨by decide, .nil⟩, ⟨by decide, by decide, by decide⟩, ?_⟩
  simp [MasterPort.AttentionLaw, MasterPort.cold]

theorem defaultTables_inRange : defaultTables.InRange := by
  refine ⟨fun i => ?_, ?_, ?_, ?_⟩
  · rw [defaultTables_pump]
    simp [PumpEntry.InRange, defaultPump]
  all_goals simp [WindCurve.InRange, defaultTables]

/-- Settles O4: law by law. -/
theorem resetStateIsSafe : Obligations.ResetStateIsSafe := by
  refine ⟨State.reset_poolLaw, State.reset_cueLaw, ⟨Nat.zero_le _, .nil, ?_⟩, fun _ => rfl,
    State.reset_ledgerLaw, State.reset_allowedLaw, State.reset_driveLaws, State.reset_ownershipLaw, fun p => ?_, rfl,
    ?_, ?_, ?_, ⟨defaultTables_inRange, defaultTables_inRange⟩, ?_, fun _ => State.reset_eq_coldReset⟩
  · simp [State.reset, Plu.cold]
  · cases p <;> exact MasterPort.cold_laws
  · intro stopped
    exact absurd stopped (by decide)
  · intro e stopped
    cases stopped
  · simp [State.RecordLaw, State.reset, Seq.cold]
  · simp [State.ExcessLaw, State.reset, Pgv.cold]

end Sys2Proof.Machine
end

section
namespace Sys2Proof.Machine

/-! ## What a command can do to the audio queue (R20–R31) -/

/-- The audio queue of `t` beside that of `s`: it stays with the position, it is empty, it has one more block in a show that takes
blocks, or the position has advanced by one frame and the head may be retired. Where the queue is not emptied, no show that takes
blocks has been left. -/
inductive State.PlayoutStep (s t : State) : Prop
  | stays (queue : t.plu.queue = s.plu.queue) (position : t.plu.position = s.plu.position)
      (quiet : s.RecordLaw → t.seq.showState.takesBlocks = false → s.seq.showState.takesBlocks = false)
  | emptied (queue : t.plu.queue = [])
  | extended (b : AudioBlock) (queue : t.plu.queue = s.plu.queue ++ [b]) (position : t.plu.position = s.plu.position)
      (room : s.plu.queue.length < 64) (behind : s.plu.expectedNext ≤ b.position) (some_ : 1 ≤ b.frames.length)
      (few : b.frames.length ≤ 240) (takes : t.seq.showState.takesBlocks = true)
  | advanced (queue : t.plu.queue = s.plu.retired) (position : t.plu.position = s.plu.position + 1)
      (quiet : t.seq.showState.takesBlocks = false → s.seq.showState.takesBlocks = false)

/-! ### The laws of the queue under such a change (R21) -/

section queueLaws

variable {p : Plu} {s t : State}

theorem Plu.expectedNext_of_concat {before : List AudioBlock} {last : AudioBlock} (h : p.queue = before ++ [last]) :
    p.expectedNext = last.endPos := by
  rw [Plu.expectedNext, h, List.getLast?_concat]

/-- The blocks of a lawful queue, and the position, are behind the expected next position (R21, R22). -/
theorem Plu.AudioLaw.le_expectedNext (law : p.AudioLaw) :
    p.position ≤ p.expectedNext ∧ ∀ a ∈ p.queue, a.endPos ≤ p.expectedNext := by
  obtain ⟨-, ordered, blocks⟩ := law
  rcases List.eq_nil_or_concat' p.queue with empty | ⟨before, last, h⟩
  · simp [Plu.expectedNext, empty]
  · rw [Plu.expectedNext_of_concat h]
    rw [h] at ordered blocks ⊢
    refine ⟨(blocks last (by simp)).1.le, fun a ha => ?_⟩
    rcases List.mem_append.mp ha with earlier | last_
    · exact ((List.pairwise_append.mp ordered).2.2 a earlier last (by simp)).trans (Nat.le_add_right _ _)
    · exact (List.mem_singleton.mp last_) ▸ le_rfl

/-- A block at or behind the expected next position can join the queue (R24). -/
theorem Plu.AudioLaw.extended (law : p.AudioLaw) {q : Plu} {b : AudioBlock} (queue : q.queue = p.queue ++ [b])
    (position : q.position = p.position) (room : p.queue.length < 64) (behind : p.expectedNext ≤ b.position)
    (some_ : 1 ≤ b.frames.length) (few : b.frames.length ≤ 240) : q.AudioLaw := by
  obtain ⟨next, ends⟩ := law.le_expectedNext
  obtain ⟨-, ordered, blocks⟩ := law
  unfold Plu.AudioLaw
  rw [queue, position]
  refine ⟨by simpa [Config.audioBlocks] using room, ?_, fun a ha => ?_⟩
  · refine List.pairwise_append.mpr ⟨ordered, List.pairwise_singleton .., fun a ha c hc => ?_⟩
    rw [List.mem_singleton.mp hc]
    exact (ends a ha).trans behind
  · rcases List.mem_append.mp ha with queued | new
    · exact blocks a queued
    · rw [List.mem_singleton.mp new]
      refine ⟨?_, some_, few⟩
      unfold AudioBlock.endPos
      omega

/-- The advance by one frame retires the head when it ends there; every other block ends later (R31). -/
theorem Plu.AudioLaw.advanced (law : p.AudioLaw) {q : Plu} (queue : q.queue = p.retired) (position : q.position = p.position + 1) :
    q.AudioLaw := by
  obtain ⟨few, ordered, blocks⟩ := law
  unfold Plu.AudioLaw
  rw [queue, position, Plu.retired]
  cases h : p.queue with
  | nil => simp
  | cons b bs =>
    rw [h] at few ordered blocks
    obtain ⟨first, rest⟩ := List.pairwise_cons.mp ordered
    have tail : ∀ a ∈ bs, p.position + 1 < a.endPos ∧ 1 ≤ a.frames.length ∧ a.frames.length ≤ Config.blockFrames := fun a ha => by
      obtain ⟨-, some_, short⟩ := blocks a (List.mem_cons_of_mem _ ha)
      have head := (blocks b (List.mem_cons_self ..)).1
      have after := first a ha
      refine ⟨?_, some_, short⟩
      unfold AudioBlock.endPos at *
      omega
    dsimp only
    split
    · exact ⟨(Nat.le_succ _).trans few, rest, tail⟩
    · rename_i plays
      refine ⟨few, ordered, List.forall_mem_cons.mpr ⟨⟨Nat.lt_of_not_le plays, ?_⟩, tail⟩⟩
      exact (blocks b (List.mem_cons_self ..)).2

theorem State.PlayoutStep.audioLaw (h : s.PlayoutStep t) (law : s.plu.AudioLaw) : t.plu.AudioLaw := by
  cases h with
  | stays queue position quiet => unfold Plu.AudioLaw at *; rwa [queue, position]
  | emptied queue => simp [Plu.AudioLaw, queue]
  | extended b queue position room behind some_ few takes => exact law.extended queue position room behind some_ few
  | advanced queue position quiet => exact law.advanced queue position

theorem State.PlayoutStep.quietLaw (h : s.PlayoutStep t) (record : s.RecordLaw) (law : s.QuietLaw) : t.QuietLaw := by
  intro silent
  cases h with
  | stays queue position quiet => rw [queue, law (quiet record silent)]
  | emptied queue => exact queue
  | extended b queue position room behind some_ few takes => exact absurd takes (by simp [silent])
  | advanced queue position quiet => rw [queue, Plu.retired, law (quiet silent)]

end queueLaws

/-! ### SEQ's operations -/

section playout

variable {s t u : State}

theorem State.PlayoutStep.of_plu (plu : t.plu = s.plu)
    (quiet : s.RecordLaw → t.seq.showState.takesBlocks = false → s.seq.showState.takesBlocks = false) : s.PlayoutStep t :=
  .stays (by rw [plu]) (by rw [plu]) quiet

theorem State.PlayoutStep.of_same (plu : t.plu = s.plu) (seq : t.seq = s.seq) : s.PlayoutStep t :=
  .of_plu plu fun _ => by rw [seq]; exact id

theorem State.PlayoutStep.refl (s : State) : s.PlayoutStep s := .of_same rfl rfl

/-- What leaves PLU and SEQ as they are belongs to the change before it. -/
theorem State.PlayoutStep.next (h : s.PlayoutStep t) (plu : u.plu = t.plu) (seq : u.seq = t.seq) : s.PlayoutStep u := by
  cases h with
  | stays queue position quiet => exact .stays (by rw [plu, queue]) (by rw [plu, position]) (by rwa [seq])
  | emptied queue => exact .emptied (by rw [plu, queue])
  | extended b queue position room behind some_ few takes =>
    exact .extended b (by rw [plu, queue]) (by rw [plu, position]) room behind some_ few (by rwa [seq])
  | advanced queue position quiet => exact .advanced (by rw [plu, queue]) (by rw [plu, position]) (by rwa [seq])

theorem State.PlayoutStep.when {c : Prop} [Decidable c] (h : c → s.PlayoutStep t) : s.PlayoutStep (if c then t else s) := by
  split
  · exact h ‹_›
  · exact .refl s

variable (s)

theorem State.seqTake_playout {q : Seq}
    (quiet : q.showState.takesBlocks = false → s.seq.showState.takesBlocks = false) : s.PlayoutStep (s.seqTake q) :=
  .stays (s.seqTake_queue q) (s.seqTake_position q) fun _ => by rwa [State.seqTake_seq, Seq.become_showState]

theorem State.run_playout : s.PlayoutStep s.run := s.seqTake_playout (by simp [ShowState.takesBlocks])

theorem State.holdFor_playout (c : HoldCause) : s.PlayoutStep (s.holdFor c) := s.seqTake_playout (by simp [ShowState.takesBlocks])

theorem State.fadeOut_playout (c : FadeCause) : s.PlayoutStep (s.fadeOut c) := .emptied (by rw [State.fadeOut_plu])

theorem State.endFade_playout (h : s.seq.showState = .fading) : s.PlayoutStep s.endFade :=
  s.seqTake_playout fun _ => by rw [h]; rfl

theorem State.settleSeq_playout : s.PlayoutStep s.settleSeq := by
  unfold State.settleSeq
  split
  · rename_i due
    exact s.endFade_playout (by simp_all [State.fadeDue])
  · split
    · exact s.fadeOut_playout _
    · exact .when fun _ => s.holdFor_playout _

theorem State.outputFrame_playout : s.PlayoutStep s.outputFrame := by
  by_cases runs : s.clockRuns = true
  · rw [State.outputFrame_running runs]
    refine .advanced (by rw [State.lowMarkTest_queue]; rfl) (by rw [State.lowMarkTest_position]; rfl) ?_
    rw [State.lowMarkTest_seq]
    exact id
  · rw [State.outputFrame_standing (by simpa using runs)]
    exact .stays rfl rfl fun _ => id

/-! ### Arrival of a block (R23, R24) -/

theorem State.queueBlock_takesBlocks (b : AudioBlock) (takes : s.seq.showState.takesBlocks = true) :
    (s.queueBlock b).seq.showState.takesBlocks = true := by
  by_cases runs : s.LeadRuns (b.endPos - s.plu.position)
  · rw [s.queueBlock_runs b runs, State.run_seq, Seq.become_showState]
    rfl
  · rwa [s.queueBlock_waits b runs, State.enqueued_seq]

theorem State.queueBlock_playout {b : AudioBlock} (room : s.plu.queue.length < 64) (behind : s.plu.expectedNext ≤ b.position)
    (some_ : 1 ≤ b.frames.length) (few : b.frames.length ≤ 240) (takes : s.seq.showState.takesBlocks = true) :
    s.PlayoutStep (s.queueBlock b) := by
  obtain ⟨n, plu⟩ := s.queueBlock_plu b
  rw [State.enqueued_plu] at plu
  exact .extended b (by rw [plu]) (by rw [plu]) room behind some_ few (s.queueBlock_takesBlocks b takes)

/-- What a front trim leaves of a block begins at the expected next position and is not empty (R24). -/
theorem State.judgeBlock_playout {b : AudioBlock} (some_ : 1 ≤ b.frames.length) (few : b.frames.length ≤ 240)
    (takes : s.seq.showState.takesBlocks = true) : s.PlayoutStep (s.judgeBlock b).1 := by
  by_cases late : b.endPos ≤ s.plu.expectedNext
  · rw [State.judgeBlock, if_pos late]
    exact .refl s
  by_cases full : Config.audioBlocks ≤ s.plu.queue.length
  · rw [State.judgeBlock, if_neg late, if_pos full]
    exact .refl s
  have room : s.plu.queue.length < 64 := Nat.lt_of_not_le full
  obtain ⟨x, judged, position, -, frames⟩ := State.judgeBlock_queued (Nat.lt_of_not_le late) room
  have length : x.frames.length = b.frames.length - (s.plu.expectedNext - b.position) := by rw [frames, List.length_drop]
  rw [judged]
  unfold AudioBlock.endPos at late
  exact s.queueBlock_playout room (by omega) (by omega) (by omega) takes

theorem blockOf_frames_length {body : List Byte} (ok : blockOk body = true) :
    1 ≤ (blockOf body).frames.length ∧ (blockOf body).frames.length ≤ 240 := by
  simp only [blockOk, Bool.and_eq_true] at ok
  obtain ⟨⟨⟨⟨-, some_⟩, few⟩, -⟩, -⟩ := ok
  rw [blockOf, blockFrames_length]
  exact ⟨of_decide_eq_true some_, of_decide_eq_true few⟩

theorem audioBlockRequest_playout (body : List Byte) : s.PlayoutStep (audioBlockRequest body s).1 := by
  by_cases ok : blockOk body = true
  · obtain ⟨some_, few⟩ := blockOf_frames_length ok
    by_cases taken : s.estop = false ∧ s.seq.showState.takesBlocks = true
    · rw [audioBlockRequest_taken ok taken.1 taken.2]
      exact s.judgeBlock_playout some_ few taken.2
    · have refused : (audioBlockRequest body s).1 = s := by
        unfold audioBlockRequest
        rw [if_neg (by simp [ok])]
        split
        · rfl
        · split <;> first | rfl | simp_all [ShowState.takesBlocks]
      exact .of_same (by rw [refused]) (by rw [refused])
  · rw [audioBlockRequest, if_pos (by simpa using ok)]
    exact .refl s

/-! ### The emergency stop and the configuration (R17, R18, R28) -/

theorem State.enterStop_queue (c : EntryCause) : (s.enterStop c).plu.queue = [] := by
  unfold State.enterStop
  simp only
  rw [show (State.chaEstop _).plu = _ from (State.chaEstop_within _).same .plu (by decide)]
  rfl

/-- The judgement of R163 after a change of PLM's record empties the queue or leaves PLU and SEQ. -/
theorem State.withPlm_judgeStop_playout (x : Plm) (c : EntryCause) : s.PlayoutStep ((s.withPlm x).judgeStop c) := by
  have same : s.PlayoutStep (s.withPlm x) := .of_same rfl rfl
  unfold State.judgeStop
  split
  · split
    · exact .emptied (State.enterStop_queue _ c)
    · exact same
  · split
    · exact same
    · exact same.next ((State.leaveStop_within _ _).same .plu (by decide)) (State.leaveStop_sameShow _ _).seq

/-- A commit finds the show UNCONFIGURED, so its queue was to be empty already (R18, R191). -/
theorem State.install_playout (opened : s.cfg.state = .opened) : s.PlayoutStep s.install := by
  refine .of_plu (s.install_within.same .plu (by decide)) fun ⟨_, _, _, _, _, configured⟩ _ => ?_
  rw [configured.mpr (by simp [opened])]
  rfl

theorem State.openConfig_playout (x : Tables) (h : s.seq.showState = .idle ∨ s.seq.showState = .unconfigured) :
    s.PlayoutStep (s.withCfg ⟨.opened, x⟩).seqOpen := by
  refine .of_plu ((State.seqOpen_within _).same .plu (by decide)) fun _ _ => ?_
  rcases h with h | h <;> rw [h] <;> rfl

/-! ### Requests -/

theorem startRequest_playout : s.PlayoutStep (startRequest s).1 := by
  unfold startRequest refuse
  split
  · split
    · exact .refl s
    · split
      · exact s.run_playout
      · exact .of_plu rfl fun _ => id
  all_goals split <;> exact .refl s

theorem pauseRequest_playout : s.PlayoutStep (pauseRequest s).1 := by
  unfold pauseRequest refuse
  split
  · exact s.holdFor_playout _
  · exact s.holdFor_playout _
  all_goals exact .refl s

theorem resumeRequest_playout : s.PlayoutStep (resumeRequest s).1 := by
  unfold resumeRequest refuse
  split
  · split
    · split
      · exact s.run_playout
      · exact s.holdFor_playout _
    · exact .refl s
  all_goals exact .refl s

theorem stopRequest_playout : s.PlayoutStep (stopRequest s).1 := by
  unfold stopRequest refuse
  split
  · exact .refl s
  · exact .refl s
  · exact s.fadeOut_playout _
  · exact s.fadeOut_playout _
  · exact s.fadeOut_playout _
  · exact .of_plu rfl fun _ => id

theorem armRequest_playout (body : List Byte) : s.PlayoutStep (armRequest body s).1 := by
  unfold armRequest refuse
  split
  · exact .refl s
  split
  · exact .refl s
  split
  all_goals try exact .refl s
  split
  · exact .refl s
  · exact .emptied (by dsimp only; rw [State.takeArm_plu])

theorem audioFlushRequest_playout : s.PlayoutStep (audioFlushRequest s).1 := .emptied (State.lowMarkTest_queue _)

theorem volumeRequest_playout (body : List Byte) : s.PlayoutStep (volumeRequest body s).1 := by
  unfold volumeRequest refuse
  split
  · exact .refl s
  · exact .stays rfl rfl fun _ => id

theorem configOpenRequest_playout (body : List Byte) : s.PlayoutStep (configOpenRequest body s).1 := by
  unfold configOpenRequest
  split
  · exact .refl s
  split
  · exact .refl s
  split
  · exact .refl s
  · split
    · exact .refl s
    · exact s.openConfig_playout _ (by grind)

theorem configCommitRequest_playout : s.PlayoutStep (configCommitRequest s).1 := by
  unfold configCommitRequest refuse
  split
  · exact .refl s
  · split
    · exact .refl s
    · exact s.install_playout (by simp_all)

/-! ### Every command -/

variable {s}

/-- A request served does to the queue what its owning block does. -/
theorem State.PlayoutStep.served {p : Port} {kind : Byte} {take : List Byte → State → Reply}
    (h : (.next (s.serve p kind take) : Host.Outcome State Fault Refusal) = .next t)
    (k : ∀ body, s.PlayoutStep (take body s).1) : s.PlayoutStep t := by
  obtain rfl := Host.Outcome.next.inj h
  exact State.serveWhen_keeps (P := s.PlayoutStep) (.refl s) fun _ _ _ _ =>
    (k _).next (State.answer_plu ..) (State.answer_seq ..)

/-- A request without a body. -/
theorem State.PlayoutStep.of_bodiless {p : Port} {kind : Byte} {take : State → Reply}
    (h : (.next (s.serve p kind (bodiless take)) : Host.Outcome State Fault Refusal) = .next t)
    (k : s.PlayoutStep (take s).1) : s.PlayoutStep t := by
  refine .served h fun body => ?_
  unfold bodiless
  split
  · exact k
  · exact .refl s

theorem State.PlayoutStep.of_next (h : (.next u : Host.Outcome State Fault Refusal) = .next t) (k : s.PlayoutStep u) :
    s.PlayoutStep t := Host.Outcome.next.inj h ▸ k

/-- Every command but the output frame event changes the queue in one of the four ways; that event does so twice, by what SEQ takes
first and then by the frame (R31). -/
theorem exec_playout {c : Instr} (h : exec c s = .next t) (frame : c ≠ .outputFrameEvent) : s.PlayoutStep t := by
  by_cases other : Part.seq ∉ writes c ∧ Part.plu ∉ writes c
  · exact .of_same ((exec_within h).same .plu other.2) ((exec_within h).same .seq other.1)
  cases c with
  | coldReset => exact .of_next h (.emptied rfl)
  | arm => exact .served h (armRequest_playout s)
  | start => exact .of_bodiless h (startRequest_playout s)
  | pause p => exact .of_bodiless h (pauseRequest_playout s)
  | resume p => exact .of_bodiless h (resumeRequest_playout s)
  | stop p => exact .of_bodiless h (stopRequest_playout s)
  | audioBlock => exact .served h (audioBlockRequest_playout s)
  | audioFlush => exact .of_bodiless h (audioFlushRequest_playout s)
  | volume p => exact .served h (volumeRequest_playout s)
  | estop => exact .of_bodiless h (s.withPlm_judgeStop_playout _ _)
  | estopReset => exact .of_bodiless h (s.withPlm_judgeStop_playout _ _)
  | configOpen => exact .served h (configOpenRequest_playout s)
  | configCommit => exact .of_bodiless h (configCommitRequest_playout s)
  | restart => exact .of_bodiless h (.emptied rfl)
  | starvationHold => exact .of_next h (.when fun _ => s.holdFor_playout _)
  | endOfShow => exact .of_next h (.when fun _ => s.fadeOut_playout _)
  | fadeEnd => exact .of_next h (.when fun due => s.endFade_playout (by simp_all [State.fadeDue]))
  | startDeadlineExpiry => exact .of_next h (.when fun _ => .of_plu rfl fun _ => id)
  | debounceDeadlineExpiry => exact .of_next h (.when fun _ => s.withPlm_judgeStop_playout _ _)
  | outputFrameEvent => exact absurd rfl frame
  | _ => exact absurd (by simp [writes, portPart_ne]) other

/-- Every command keeps the record law: it is a step with the command at the front of the queue. -/
theorem exec_keeps_recordLaw {c : Instr} (law : s.RecordLaw) (h : exec c s = .next t) : t.RecordLaw :=
  everyStepKeepsTheSequencerRecord { s with pending := c :: s.pending } t law h

end playout

/-- Settles O25: the four ways in which a command changes the queue keep the third law. -/
theorem everyStepKeepsTheAudioQueueLaw : Obligations.EveryStepKeepsTheAudioQueueLaw := by
  intro s t law h
  refine step_keeps (P := fun s => s.plu.AudioLaw) (fun _ _ => id) (fun c s t law h => ?_) law h
  by_cases frame : c = .outputFrameEvent
  · subst frame
    obtain rfl := Host.Outcome.next.inj h
    exact s.settleSeq.outputFrame_playout.audioLaw (s.settleSeq_playout.audioLaw law)
  · exact (exec_playout h frame).audioLaw law

/-- Settles O26: none of the four ways leaves blocks behind in a show state that takes none. -/
theorem everyStepKeepsTheQueueEmptyWithoutAShow : Obligations.EveryStepKeepsTheQueueEmptyWithoutAShow := by
  intro s t record law h
  refine (step_keeps (P := fun s => s.RecordLaw ∧ s.QuietLaw) (fun _ _ => id) (fun c s t law h => ?_) ⟨record, law⟩ h).2
  obtain ⟨record, law⟩ := law
  refine ⟨exec_keeps_recordLaw record h, ?_⟩
  by_cases frame : c = .outputFrameEvent
  · subst frame
    obtain rfl := Host.Outcome.next.inj h
    exact s.settleSeq.outputFrame_playout.quietLaw (s.settleSeq_follows.record record) (s.settleSeq_playout.quietLaw record law)
  · exact (exec_playout h frame).quietLaw record law

/-! ## AUDIO_FLUSH and VOLUME (R27, R29, R35) -/

/-- An empty queue has no lead (R22). -/
theorem State.flushAudio_lead (s : State) : s.flushAudio.plu.lead = 0 := Nat.sub_self _

theorem audioFlushRequest_eq (s : State) : audioFlushRequest s =
    (if s.seq.showState = .running ∧ s.seq.silent = false ∧ s.plu.lowMarkArmed = true ∧ 0 < s.tables.limits.lowMark then
      (s.withPlu { s.plu with queue := [], lowMarkArmed := false }).raise .audioLow 0 0
    else s.withPlu { s.plu with queue := [] }, .ok, []) := by
  rw [audioFlushRequest, State.lowMarkTest, State.flushAudio_lead]
  rfl

/-- The number in a body of two bytes (R177). -/
theorem field_pair (hi lo : Byte) : field [hi, lo] 0 2 = 256 * hi.toNat + lo.toNat := by
  simp [field, Nat.mul_comm]

/-- Settles O23: the flush with the low-mark test on an empty queue, and the two branches of VOLUME. -/
theorem flushEmptiesTheQueueAndVolumeIsClamped : Obligations.FlushEmptiesTheQueueAndVolumeIsClamped := by
  intro s tag
  refine ⟨fun h => .of_bodiless rfl h (audioFlushRequest_eq s), fun p body h => ⟨fun length => .of_reply rfl h (if_pos length), ?_⟩⟩
  rintro hi lo rfl
  refine .of_reply rfl h ?_
  rw [volumeRequest, if_neg (by simp), field_pair]

end Sys2Proof.Machine
end

section
namespace Sys2Proof.Machine

/-! ## Cue lists under the second law (R40) -/

/-- The second law, pair by pair: of two cues the later one starts later and is PENDING. -/
theorem cueListLaw_iff {l : List Cue} : CueListLaw l ↔ l.Pairwise fun a b => a.start < b.start ∧ b.isPending = true := by
  rw [CueListLaw, List.pairwise_and_iff]
  refine and_congr_right fun _ => ?_
  cases l with
  | nil => simp
  | cons a l =>
    rw [List.tail_cons, List.pairwise_cons]
    exact ⟨fun h => ⟨h, List.pairwise_of_forall_mem_list fun _ _ b hb => h b hb⟩, And.left⟩

theorem CueListLaw.nil : CueListLaw [] := cueListLaw_iff.mpr .nil

theorem CueListLaw.singleton (k : Cue) : CueListLaw [k] := cueListLaw_iff.mpr (List.pairwise_singleton ..)

theorem CueListLaw.sublist {l m : List Cue} (h : CueListLaw l) (sub : m.Sublist l) : CueListLaw m :=
  cueListLaw_iff.mpr ((cueListLaw_iff.mp h).sublist sub)

@[simp] theorem CueEntry.update_start (e : CueEntry) (k : Cue) : (e.update k).start = k.start := by
  unfold CueEntry.update
  split <;> rfl

@[simp] theorem CueEntry.update_isPending (e : CueEntry) (k : Cue) : (e.update k).isPending = k.isPending := by
  unfold CueEntry.update
  split
  · cases h : k.state <;> simp [Cue.isPending, h]
  · rfl

@[simp] theorem CueEntry.cue_start (e : CueEntry) : e.cue.start = e.start := rfl

theorem CueListLaw.map_update {l : List Cue} (h : CueListLaw l) (e : CueEntry) : CueListLaw (l.map e.update) := by
  rw [cueListLaw_iff] at h ⊢
  rw [List.pairwise_map]
  simpa using h

/-- A PENDING cue may be inserted at a new start that is behind an ACTIVE cue's (R43). -/
theorem CueListLaw.insert {l : List Cue} {k : Cue} (h : CueListLaw l) (pending : k.isPending = true)
    (fresh : ∀ x ∈ l, x.start ≠ k.start) (behind : ∀ x ∈ l, x.isActive = true → x.start < k.start) :
    CueListLaw (insertCue k l) := by
  rw [insertCue_eq h.1 fresh]
  rw [cueListLaw_iff] at h ⊢
  have later : ∀ x ∈ l.filter (fun x => k.start < x.start), k.start < x.start ∧ x.isPending = true := fun x hx => by
    obtain ⟨mem, lt⟩ := List.mem_filter.mp hx
    have lt : k.start < x.start := of_decide_eq_true lt
    refine ⟨lt, Bool.eq_true_of_not_eq_false fun active => ?_⟩
    exact absurd (behind x mem (by simp [Cue.isActive, active])) (by omega)
  refine List.pairwise_append.mpr ⟨h.sublist List.filter_sublist,
    List.pairwise_cons.mpr ⟨later, h.sublist List.filter_sublist⟩, fun a ha b hb => ?_⟩
  have lt : a.start < k.start := of_decide_eq_true (List.mem_filter.mp ha).2
  rcases List.mem_cons.mp hb with rfl | hb
  · exact ⟨lt, pending⟩
  · obtain ⟨after, waits⟩ := later b hb
    exact ⟨lt.trans after, waits⟩

theorem lastDue_mem {l : List Cue} {t : Nat} {k : Cue} (h : lastDue l t = some k) : k ∈ l ∧ k.start ≤ t := by
  obtain ⟨mem, due⟩ := List.mem_filter.mp (List.mem_of_getLast? h)
  exact ⟨mem, of_decide_eq_true due⟩

/-- All that the activation of R49 can do to a list: nothing, or the latest due cue comes into force before the PENDING cues that are
ahead. -/
theorem activatedList_cases (l : List Cue) (shown : Value) (t : Nat) (now : Time) :
    activatedList l shown t now = l ∨ ∃ k v a, k ∈ l ∧ k.start ≤ t ∧
      activatedList l shown t now = { k with state := .active v a } :: l.filter fun x => decide (t < x.start) && x.isPending := by
  unfold activatedList
  split
  · rename_i k due
    split
    · obtain ⟨mem, start⟩ := lastDue_mem due
      exact .inr ⟨k, _, _, mem, start, rfl⟩
    · exact .inl rfl
  · exact .inl rfl

theorem activatedList_length_le (l : List Cue) (shown : Value) (t : Nat) (now : Time) :
    (activatedList l shown t now).length ≤ l.length := by
  rcases activatedList_cases l shown t now with same | ⟨k, v, a, mem, due, eq⟩
  · rw [same]
  · rw [eq, List.length_cons]
    exact List.length_filter_lt_length_iff_exists.mpr ⟨k, mem, by simp [due]⟩

theorem CueListLaw.activated {l : List Cue} (h : CueListLaw l) (shown : Value) (t : Nat) (now : Time) :
    CueListLaw (activatedList l shown t now) := by
  rcases activatedList_cases l shown t now with same | ⟨k, v, a, mem, due, eq⟩
  · rwa [same]
  · rw [eq]
    rw [cueListLaw_iff] at h ⊢
    refine List.pairwise_cons.mpr ⟨fun x hx => ?_, h.sublist List.filter_sublist⟩
    obtain ⟨ahead, waits⟩ := Bool.and_eq_true_iff.mp (List.mem_filter.mp hx).2
    exact ⟨due.trans_lt (of_decide_eq_true ahead), waits⟩

theorem keptByClear_sublist (first last fromMs : Nat) (c : Channel) (l : List Cue) :
    (keptByClear first last fromMs c l).Sublist l := by
  unfold keptByClear
  split
  · exact List.filter_sublist
  · exact .refl l

/-- All that the storing of a checked entry can do to the store (R43): nothing, or the channel's list is replaced by one for which the
pool has the records, and which obeys the second law when the old one does. -/
theorem storeCue_cases (e : CueEntry) (x : Cst) (n : Tally) :
    (storeCue e x n).1 = x ∨ ∃ l, (storeCue e x n).1 = x.withList e.channel l ∧
      l.length ≤ x.free + (x.lists[e.channel]).length ∧ (CueListLaw x.lists[e.channel] → CueListLaw l) := by
  unfold storeCue
  simp only
  by_cases same : x.lists[e.channel].any (fun k => k.start = e.start) = true
  · rw [if_pos same]
    exact .inr ⟨_, rfl, by simp, fun law => law.map_update e⟩
  rw [if_neg same]
  have fresh : ∀ k ∈ x.lists[e.channel], k.start ≠ e.start := by simpa using same
  by_cases retires : x.lists[e.channel].any (fun k => k.isActive && decide (e.start < k.start)) = true
  · rw [if_pos retires]
    refine .inr ⟨_, rfl, ?_, fun law => ?_⟩
    · obtain ⟨k, mem, active⟩ := List.any_eq_true.mp retires
      rw [insertCue_length]
      have shorter := List.length_filter_lt_length_iff_exists
        (p := fun k => !(k.isActive && decide (e.start < k.start))) (l := x.lists[e.channel]).mpr ⟨k, mem, by simp [active]⟩
      omega
    · refine (law.sublist List.filter_sublist).insert (k := e.cue) rfl (fun k hk => fresh k (List.mem_filter.mp hk).1)
        fun k hk active => ?_
      obtain ⟨mem, stays⟩ := List.mem_filter.mp hk
      exact lt_of_le_of_ne (by simpa [active] using stays) (fresh k mem)
  rw [if_neg retires]
  by_cases empty : x.free = 0
  · rw [if_pos empty]
    exact .inl rfl
  · rw [if_neg empty]
    refine .inr ⟨_, rfl, ?_, fun law => law.insert (k := e.cue) rfl fresh fun k mem active => ?_⟩
    · rw [insertCue_length]
      omega
    · exact lt_of_le_of_ne (Nat.le_of_not_lt fun later : e.start < k.start => retires (List.any_eq_true.mpr ⟨k, mem, by simp [active, later]⟩))
        (fresh k mem)

/-! ## What a command can do to the two laws of the cue store (R39, R40) -/

/-- A channel's entry of a table when one entry is replaced. -/
theorem channels_set {α : Type} (v : Vector α 336) (c d : Channel) (a : α) : (v.set c a)[d] = if c = d then a else v[d] := by
  simp only [Fin.getElem_fin, Vector.getElem_set, Fin.ext_iff]

/-- The first and the second law hold in `t` where they held in `s`. -/
structure State.KeepsCues (s t : State) : Prop where
  pool : s.PoolLaw → t.PoolLaw
  lists : s.CueLaw → t.CueLaw

section keepsCues

variable {s t u : State}

theorem State.KeepsCues.of_lists (lists : t.cst.lists = s.cst.lists) (free : t.cst.free = s.cst.free) : s.KeepsCues t :=
  ⟨by rw [State.PoolLaw, State.PoolLaw, lists, free]; exact id, by rw [State.CueLaw, State.CueLaw, lists]; exact id⟩

theorem State.KeepsCues.of_cst (h : t.cst = s.cst) : s.KeepsCues t := .of_lists (by rw [h]) (by rw [h])

theorem State.KeepsCues.refl (s : State) : s.KeepsCues s := .of_cst rfl

theorem State.KeepsCues.next (h : s.KeepsCues t) (k : t.KeepsCues u) : s.KeepsCues u := ⟨k.pool ∘ h.pool, k.lists ∘ h.lists⟩

theorem State.KeepsCues.when {c : Prop} [Decidable c] (h : s.KeepsCues t) : s.KeepsCues (if c then t else s) := by
  split
  · exact h
  · exact .refl s

/-- A cue store of lists all of one lawful form, whatever was before. -/
theorem State.KeepsCues.of_fresh {f : Channel → List Cue} {n : Nat} (lists : t.cst.lists = tabulate f)
    (length : ∀ c, (f c).length = n) (law : ∀ c, CueListLaw (f c)) (free : t.cst.free + 336 * n = 4096) : s.KeepsCues t := by
  refine ⟨fun _ => ?_, fun _ c => ?_⟩
  · rw [State.PoolLaw, lists, listedCues_tabulate length]
    exact free
  · rw [lists, Fin.getElem_fin, getElem_tabulate]
    exact law _

theorem State.KeepsCues.of_cleared (lists : t.cst.lists = uniform 336 []) (free : t.cst.free = 4096) : s.KeepsCues t := by
  refine ⟨fun _ => ?_, fun _ c => ?_⟩
  · rw [State.PoolLaw, lists, listedCues_uniform_nil, free]
    rfl
  · rw [lists, Fin.getElem_fin, getElem_uniform]
    exact .nil

/-- One list replaced, with the records it gives up or takes. -/
theorem State.KeepsCues.of_list {c : Channel} {l : List Cue} (lists : t.cst.lists = s.cst.lists.set c l)
    (free : t.cst.free = s.cst.free + (s.cst.lists[c]).length - l.length)
    (room : l.length ≤ s.cst.free + (s.cst.lists[c]).length) (law : CueListLaw s.cst.lists[c] → CueListLaw l) :
    s.KeepsCues t := by
  refine ⟨fun pool => ?_, fun all d => ?_⟩
  · rw [State.PoolLaw, lists, free]
    exact (s.cst.withList_pool c l room).trans pool
  · rw [lists, channels_set]
    split
    · exact law (all c)
    · exact all d

variable (s)

theorem State.poolLowTest_keepsCues : s.KeepsCues s.poolLowTest := .of_lists s.poolLowTest_lists s.poolLowTest_free

theorem State.evaluate_keepsCues (c : Channel) : s.KeepsCues (s.evaluate c) := by
  obtain ⟨lists, free, -, -⟩ := s.evaluate_cst c
  exact .of_list lists free ((activatedList_length_le ..).trans (Nat.le_add_left ..)) fun law => law.activated ..

/-- An installation leaves one cue per channel (R53). -/
theorem State.installCues_keepsCues (u : State) (o : Origin) (d : Nat) (k : Curve) : s.KeepsCues (u.installCues o d k) :=
  .of_fresh (n := 1) (u.installCues_lists o d k) (fun _ => rfl) (fun _ => .singleton _) (by rw [State.installCues_free])

theorem State.fadeOut_keepsCues (c : FadeCause) : s.KeepsCues (s.fadeOut c) :=
  (s.installCues_keepsCues s _ _ _).next (.of_cst (s.fadeOut_cst c))

theorem State.settleSeq_keepsCues : s.KeepsCues s.settleSeq := by
  rcases s.settleSeq_cst with same | fade
  · exact .of_cst same
  · exact (s.installCues_keepsCues s _ _ _).next (.of_cst fade)

theorem State.enterStop_keepsCues (c : EntryCause) : s.KeepsCues (s.enterStop c) := by
  unfold State.enterStop
  simp only
  refine State.KeepsCues.next ?_ (.of_cst ((State.chaEstop_within _).same .cst (by decide)))
  exact (s.installCues_keepsCues _ _ _ _).next (.of_cst rfl)

/-- The judgement of R163 after a change of PLM's record. -/
theorem State.withPlm_judgeStop_keepsCues (x : Plm) (c : EntryCause) : s.KeepsCues ((s.withPlm x).judgeStop c) := by
  have same : s.KeepsCues (s.withPlm x) := .of_cst rfl
  unfold State.judgeStop
  split
  · split
    · exact same.next (State.enterStop_keepsCues _ c)
    · exact same
  · split
    · exact same
    · exact same.next (.of_cst ((State.leaveStop_within _ _).same .cst (by decide)))

/-! ### Requests -/

theorem loadEntry_keepsCues (acc : Cst × Tally) (entry : List Byte) :
    (s.withCst acc.1).KeepsCues (s.withCst (loadEntry acc entry).1) := by
  unfold loadEntry
  split
  · rename_i e _
    rcases storeCue_cases e acc.1 acc.2 with same | ⟨l, stored, room, law⟩
    · rw [same]
      exact .refl _
    · rw [stored]
      exact .of_list rfl rfl room law
  · exact .refl _

theorem foldl_loadEntry_keepsCues (entries : List (List Byte)) (acc : Cst × Tally) :
    (s.withCst acc.1).KeepsCues (s.withCst (entries.foldl loadEntry acc).1) := by
  induction entries generalizing acc with
  | nil => exact .refl _
  | cons entry entries ih => exact (loadEntry_keepsCues s acc entry).next (ih _)

theorem cueLoadRequest_keepsCues (body : List Byte) : s.KeepsCues (cueLoadRequest body s).1 := by
  unfold cueLoadRequest refuse
  split
  · exact .refl s
  split
  · exact .refl s
  split
  · exact .refl s
  · exact (foldl_loadEntry_keepsCues s (cueEntries body) (s.cst, Tally.zero)).next (State.poolLowTest_keepsCues _)

/-- The lists that a CUE_CLEAR leaves (R47). -/
def Cst.keptLists (x : Cst) (first last fromMs : Nat) : Vector (List Cue) 336 :=
  tabulate fun c => keptByClear first last fromMs c x.lists[c]

theorem Cst.keptLists_channel (x : Cst) (first last fromMs : Nat) (c : Channel) :
    (x.keptLists first last fromMs)[c] = keptByClear first last fromMs c x.lists[c] := by
  rw [Cst.keptLists, Fin.getElem_fin, getElem_tabulate]

/-- A CUE_CLEAR adds no record to a list (R47). -/
theorem Cst.listedCues_keptLists_le (x : Cst) (first last fromMs : Nat) :
    listedCues (x.keptLists first last fromMs) ≤ listedCues x.lists := by
  rw [listedCues_eq_sum, listedCues_eq_sum]
  refine Finset.sum_le_sum fun c _ => ?_
  rw [Cst.keptLists_channel]
  exact (keptByClear_sublist ..).length_le

/-- The number of records that a CUE_CLEAR retires (R47). -/
def Cst.retiredBy (x : Cst) (first last fromMs : Nat) : Nat := listedCues x.lists - listedCues (x.keptLists first last fromMs)

/-- The retired records and those still listed are all that were listed (R39, R47). -/
theorem Cst.listedCues_add_retiredBy (x : Cst) (first last fromMs : Nat) :
    listedCues (x.keptLists first last fromMs) + x.retiredBy first last fromMs = listedCues x.lists :=
  Nat.add_sub_cancel' (x.listedCues_keptLists_le ..)

/-- The store that a CUE_CLEAR leaves: the records of the retired cues are free again (R39, R47). -/
def Cst.clearedBy (x : Cst) (first last fromMs : Nat) : Cst :=
  { x with
    lists := x.keptLists first last fromMs
    free := x.free + x.retiredBy first last fromMs }

theorem State.clearedBy_keepsCues (first last fromMs : Nat) :
    s.KeepsCues (s.withCst (s.cst.clearedBy first last fromMs)) := by
  refine ⟨fun pool => ?_, fun all c => ?_⟩
  · have all := s.cst.listedCues_add_retiredBy first last fromMs
    unfold State.PoolLaw at *
    simp only [State.withCst_cst, Cst.clearedBy]
    omega
  · rw [State.withCst_cst, Cst.clearedBy, Cst.keptLists_channel]
    exact (all c).sublist (keptByClear_sublist ..)

theorem cueClearRequest_keepsCues (body : List Byte) : s.KeepsCues (cueClearRequest body s).1 := by
  unfold cueClearRequest refuse
  split
  · exact .refl s
  split
  · exact .refl s
  split
  · exact .refl s
  · exact (s.clearedBy_keepsCues (field body 0 2) (field body 2 2) (field body 4 4)).next (State.poolLowTest_keepsCues _)

theorem stopRequest_keepsCues : s.KeepsCues (stopRequest s).1 := by
  unfold stopRequest refuse
  split
  · exact .refl s
  · exact .refl s
  · exact s.fadeOut_keepsCues _
  · exact s.fadeOut_keepsCues _
  · exact s.fadeOut_keepsCues _
  · exact .of_cst rfl

theorem configCommitRequest_keepsCues : s.KeepsCues (configCommitRequest s).1 := by
  unfold configCommitRequest refuse
  split
  · exact .refl s
  · split
    · exact .refl s
    · obtain ⟨lists, free, -, -⟩ := s.tablesInstalled_cst
      rw [State.install_eq]
      exact .next (t := s.tablesInstalled) (.of_cleared lists free) (.of_cst ((State.seqCommit_within _).same .cst (by decide)))

/-! ### Every command -/

variable {s}

/-- A request served does to the cue store what its owning block does. -/
theorem State.KeepsCues.served {p : Port} {kind : Byte} {take : List Byte → State → Reply}
    (h : (.next (s.serve p kind take) : Host.Outcome State Fault Refusal) = .next t)
    (k : ∀ body, s.KeepsCues (take body s).1) : s.KeepsCues t := by
  obtain rfl := Host.Outcome.next.inj h
  exact State.serveWhen_keeps (P := s.KeepsCues) (.refl s) fun _ _ _ _ => (k _).next (.of_cst (State.answer_cst ..))

/-- A request without a body. -/
theorem State.KeepsCues.of_bodiless {p : Port} {kind : Byte} {take : State → Reply}
    (h : (.next (s.serve p kind (bodiless take)) : Host.Outcome State Fault Refusal) = .next t)
    (k : s.KeepsCues (take s).1) : s.KeepsCues t := by
  refine .served h fun body => ?_
  unfold bodiless
  split
  · exact k
  · exact .refl s

theorem State.KeepsCues.of_next (h : (.next u : Host.Outcome State Fault Refusal) = .next t) (k : s.KeepsCues u) :
    s.KeepsCues t := Host.Outcome.next.inj h ▸ k

theorem State.askShown_keepsCues (s : State) (c : Channel) : s.KeepsCues (s.askShown c) := by
  unfold State.askShown
  split
  · split
    · exact (s.evaluate_keepsCues c).next (.of_cst rfl)
    all_goals exact .refl s
  · exact .refl s

theorem cst_ne_portPart (p : Port) : Part.cst ≠ portPart p := by cases p <;> decide

/-- Every command keeps the two laws: most do not write the cue store, and the others clear it, fill it with one cue per channel, or
change its lists one at a time. -/
theorem exec_keepsCues {c : Instr} (h : exec c s = .next t) : s.KeepsCues t := by
  by_cases other : Part.cst ∉ writes c
  · exact .of_cst ((exec_within h).same .cst other)
  cases c with
  | coldReset => exact .of_next h (.of_cleared rfl rfl)
  | stop p => exact .of_bodiless h (stopRequest_keepsCues s)
  | cueLoad => exact .served h (cueLoadRequest_keepsCues s)
  | cueClear => exact .served h (cueClearRequest_keepsCues s)
  | estop => exact .of_bodiless h (s.withPlm_judgeStop_keepsCues _ _)
  | estopReset => exact .of_bodiless h (s.withPlm_judgeStop_keepsCues _ _)
  | configCommit => exact .of_bodiless h (configCommitRequest_keepsCues s)
  | restart => exact .of_bodiless h (.of_cleared rfl rfl)
  | outputFrameEvent =>
    exact .of_next h (s.settleSeq_keepsCues.next (.of_cst ((State.outputFrame_within _).same .cst (by decide))))
  | endOfShow => exact .of_next h (.when (s.fadeOut_keepsCues _))
  | channelEvaluation ch => exact .of_next h (s.askShown_keepsCues ch)
  | debounceDeadlineExpiry => exact .of_next h (.when (s.withPlm_judgeStop_keepsCues _ _))
  | _ => exact absurd (by simp [writes, cst_ne_portPart]) other

end keepsCues

/-- Settles O33: every command keeps the first law, and the queue of waiting commands does not touch it. -/
theorem everyStepKeepsTheCuePoolLaw : Obligations.EveryStepKeepsTheCuePoolLaw :=
  fun _ _ law h => step_keeps (P := State.PoolLaw) (fun _ _ => id) (fun _ _ _ law h => (exec_keepsCues h).pool law) law h

/-- Settles O34: every command keeps the second law, and the queue of waiting commands does not touch it. -/
theorem everyStepKeepsTheCueListLaw : Obligations.EveryStepKeepsTheCueListLaw :=
  fun _ _ law h => step_keeps (P := State.CueLaw) (fun _ _ => id) (fun _ _ _ law h => (exec_keepsCues h).lists law) law h

end Sys2Proof.Machine
end

section
namespace Sys2Proof.Machine

/-! ## Ramps and their curves (R50–R52) -/

/-- A rising ramp adds the part of the rise, rounded down (R51). -/
theorem rampNat_rising (a rise num den : Nat) : rampNat a (a + rise) num den = a + rise * num / den := by
  unfold rampNat
  rw [show ((a + rise : Nat) : Int) - (a : Int) = (rise : Int) by omega, ← Int.natCast_mul, ← Int.ofNat_tdiv,
    ← Int.natCast_add, Int.toNat_natCast]

theorem falling_tdiv (b fall num den : Nat) :
    (((b : Int) - ((b + fall : Nat) : Int)) * num).tdiv den = -((fall * num / den : Nat) : Int) := by
  rw [show (b : Int) - ((b + fall : Nat) : Int) = -(fall : Int) by omega, Int.neg_mul, Int.neg_tdiv, ← Int.natCast_mul,
    ← Int.ofNat_tdiv]

/-- A falling ramp takes the part of the fall off, rounded down (R51). -/
theorem rampNat_falling (b fall num den : Nat) : rampNat (b + fall) b num den = b + fall - fall * num / den := by
  rw [rampNat, falling_tdiv]
  generalize fall * num / den = lost
  omega

theorem mul_div_le_of_le {num den : Nat} (n : Nat) (h : num ≤ den) : n * num / den ≤ n :=
  Nat.div_le_of_le_mul (by rw [Nat.mul_comm den]; exact Nat.mul_le_mul_left n h)

section rampNat

variable {num den : Nat} (a b : Nat) (h : num ≤ den)

include h

/-- Within its duration a ramp stays between its ends (R51). -/
theorem rampNat_between : min a b ≤ rampNat a b num den ∧ rampNat a b num den ≤ max a b := by
  rcases Nat.le_total a b with rises | falls
  · obtain ⟨rise, rfl⟩ := Nat.exists_eq_add_of_le rises
    have part := mul_div_le_of_le rise h
    rw [rampNat_rising]
    generalize rise * num / den = gained at *
    omega
  · obtain ⟨fall, rfl⟩ := Nat.exists_eq_add_of_le falls
    have part := mul_div_le_of_le fall h
    rw [rampNat_falling]
    generalize fall * num / den = lost at *
    omega

/-- Within its duration a ramp is not cut off at 0, and truncates toward its from-value (R51). -/
theorem rampNat_truncates : (rampNat a b num den : Int) = a + (((b : Int) - a) * num).tdiv den := by
  refine Int.toNat_of_nonneg ?_
  rcases Nat.le_total a b with rises | falls
  · have : 0 ≤ (((b : Int) - a) * num).tdiv den :=
      Int.tdiv_nonneg (Int.mul_nonneg (by omega) (Int.natCast_nonneg _)) (Int.natCast_nonneg _)
    omega
  · obtain ⟨fall, rfl⟩ := Nat.exists_eq_add_of_le falls
    have part := mul_div_le_of_le fall h
    rw [falling_tdiv]
    generalize fall * num / den = lost at *
    omega

end rampNat

/-- A whole ramp ends at its target (R50). -/
theorem rampNat_end (a b : Nat) {n : Nat} (h : 0 < n) : rampNat a b n n = b := by
  unfold rampNat
  rw [Int.mul_tdiv_cancel _ (by omega)]
  omega

/-- The weight of a progress of at most 1000 is at most 1000: 10⁹ − 3,000u² + 2u³ is (1000 − u)² (1000 + 2u) (R51). -/
theorem weight_le {u : Nat} (h : u ≤ 1000) : (3000 * u ^ 2 - 2 * u ^ 3) / 1000000 ≤ 1000 := by
  obtain ⟨left, rest⟩ := Nat.exists_eq_add_of_le h
  have product : 1000000000 + 2 * u ^ 3 = 3000 * u ^ 2 + left ^ 2 * (1000 + 2 * u) := by
    obtain rfl : left = 1000 - u := by omega
    zify [h]
    ring
  exact Nat.div_le_of_le_mul (by omega)

theorem progress_le {e d : Nat} (h : e ≤ d) : e * 1000 / d ≤ 1000 := by
  rw [Nat.mul_comm]
  exact mul_div_le_of_le 1000 h

theorem easeWeight_le {e d : Nat} (h : e ≤ d) : easeWeight e d ≤ 1000 := weight_le (progress_le h)

/-- At the end of its duration EASE has its whole weight (R51). -/
theorem easeWeight_end {d : Nat} (h : 0 < d) : easeWeight d d = 1000 := by
  unfold easeWeight
  rw [Nat.mul_div_cancel_left _ h]
  rfl

/-- The level of a ramp along a curve (R50, R51). -/
def curveLevel (k : Curve) (a b e d : Nat) : Nat :=
  if d = 0 then b
  else
    match k with
    | .step => b
    | .linear => rampNat a b e d
    | .ease => rampNat a b (easeWeight e d) 1000

theorem curveValue_level (k : Curve) (a b e d : Nat) :
    curveValue k (.level a) (.level b) e d = .level (curveLevel k a b e d) := by
  unfold curveValue curveLevel
  split
  · rfl
  · cases k <;> rfl

/-- A colour is ramped component by component (R52). -/
theorem curveValue_colour (k : Curve) (a b : Colour) (e d : Nat) :
    curveValue k (.colour a) (.colour b) e d = .colour ⟨curveLevel k a.r b.r e d, curveLevel k a.g b.g e d,
      curveLevel k a.b b.b e d, curveLevel k a.w b.w e d, curveLevel k a.i b.i e d⟩ := by
  unfold curveValue curveLevel
  split
  · rfl
  · cases k <;> rfl

theorem curveLevel_between (k : Curve) (a b : Nat) {e d : Nat} (h : e ≤ d) :
    min a b ≤ curveLevel k a b e d ∧ curveLevel k a b e d ≤ max a b := by
  unfold curveLevel
  split
  · exact ⟨min_le_right .., le_max_right ..⟩
  · cases k with
    | step => exact ⟨min_le_right .., le_max_right ..⟩
    | linear => exact rampNat_between a b h
    | ease => exact rampNat_between a b (easeWeight_le h)

/-- Every ramp has reached its target at the end of its duration (R50). -/
theorem curveLevel_end (k : Curve) (a b d : Nat) : curveLevel k a b d d = b := by
  unfold curveLevel
  split
  · rfl
  · rename_i positive
    cases k with
    | step => rfl
    | linear => exact rampNat_end a b (Nat.pos_of_ne_zero positive)
    | ease =>
      rw [easeWeight_end (Nat.pos_of_ne_zero positive)]
      exact rampNat_end a b (by decide)

theorem curveLevel_step (a b e d : Nat) : curveLevel .step a b e d = b := ite_self b

theorem curveLevel_linear (a b e : Nat) {d : Nat} (h : 0 < d) : curveLevel .linear a b e d = rampNat a b e d :=
  if_neg (Nat.ne_of_gt h)

theorem curveLevel_ease (a b e : Nat) {d : Nat} (h : 0 < d) :
    curveLevel .ease a b e d = rampNat a b (easeWeight e d) 1000 := if_neg (Nat.ne_of_gt h)

/-- Settles O32: the ramp of a level along each curve, and a colour as five of them. -/
theorem rampsFollowTheirCurvesBetweenTheirEnds : Obligations.RampsFollowTheirCurvesBetweenTheirEnds := by
  refine ⟨fun a b e d positive within => ?_, by decide, fun k a b e d within => ?_, fun k a b e d => ?_⟩
  · refine ⟨_, easeWeight e d, rampNat a b (easeWeight e d) 1000, rfl, progress_le within, rfl, easeWeight_le within, ?_,
      rampNat_truncates a b (easeWeight_le within)⟩
    rw [curveValue_level, curveLevel_ease a b e positive]
  · obtain ⟨low, high⟩ := curveLevel_between k a b within
    refine ⟨curveLevel k a b e d, curveValue_level .., low, high, ?_, ?_, ?_⟩
    · rintro rfl
      exact curveLevel_end ..
    · rintro rfl
      exact curveLevel_step ..
    · rintro rfl positive
      rw [curveLevel_linear a b e positive]
      exact rampNat_truncates a b within
  · refine ⟨_, curveValue_colour .., ?_⟩
    simp [curveValue_level]

end Sys2Proof.Machine
end

section
namespace Sys2Proof.Machine

/-! ## CUE_CLEAR (R46, R47) -/

/-- The free-pool-low test at the end of an operation that has changed of the cue store only lists, records, show values and the skipped
count (R46). -/
theorem State.poolLowTest_tested_of {s : State} {x : Cst} (flag : x.poolLowArmed = s.cst.poolLowArmed) :
    s.PoolTested s.mpShow x.free (s.withCst x).poolLowTest.cst.poolLowArmed (s.withCst x).poolLowTest.mpShow :=
  (s.withCst x).poolLowTest_tested.congr flag.symm rfl rfl

/-- A CUE_CLEAR that passes its tests (R47). -/
theorem cueClearRequest_taken {s : State} {body : List Byte} (length : body.length = 8) (order : field body 0 2 ≤ field body 2 2)
    (range : field body 2 2 ≤ 335) (estop : s.estop = false) (configured : s.seq.showState ≠ .unconfigured)
    (fading : s.seq.showState ≠ .fading) :
    cueClearRequest body s = ((s.withCst (s.cst.clearedBy (field body 0 2) (field body 2 2) (field body 4 4))).poolLowTest, .ok,
      bytes 2 (s.cst.retiredBy (field body 0 2) (field body 2 2) (field body 4 4)) ++
        bytes 2 (s.cst.free + s.cst.retiredBy (field body 0 2) (field body 2 2) (field body 4 4))) := by
  unfold cueClearRequest
  rw [if_neg (by omega), if_neg (by simp [estop]), if_neg (by simp [configured, fading])]
  rfl

/-- What CUE_CLEAR leaves of a list, said by what stays (R47). -/
theorem keptByClear_eq (first last fromMs : Nat) (c : Channel) (l : List Cue) : keptByClear first last fromMs c l =
    if first ≤ c.val ∧ c.val ≤ last then l.filter fun k => k.isActive || decide (k.start < fromMs) else l := by
  unfold keptByClear
  split
  · refine List.filter_congr fun k _ => ?_
    rw [Bool.not_and, Cue.isActive, ← decide_not, decide_eq_decide.mpr Nat.not_le]
  · rfl

/-- Settles O29: the kept lists channel by channel, and the records that they give up. -/
theorem cueClearRetiresPendingCues : Obligations.CueClearRetiresPendingCues := by
  rintro s tag body first last fromMs h length rfl rfl rfl order range estop configured fading
  refine ⟨_, _, .of_reply rfl h (cueClearRequest_taken length order range estop configured fading), fun c => ?_, ?_, ?_, ?_, ?_, ?_⟩
  · rw [State.poolLowTest_lists, ← keptByClear_eq]
    exact s.cst.keptLists_channel ..
  · rw [State.poolLowTest_free]
    rfl
  · rw [State.poolLowTest_lists]
    exact s.cst.listedCues_add_retiredBy ..
  · rw [State.poolLowTest_shown]
    rfl
  · rw [State.poolLowTest_skipped]
    rfl
  · rw [State.poolLowTest_free]
    exact State.poolLowTest_tested_of rfl

/-! ## Evaluation (R48–R50) -/

/-- The evaluation that the scheduler asks for: CST's part, and the show value handed over with the next ask (R48, R82). -/
theorem exec_channelEvaluation {s : State} {c : Channel} {g : Gather} (h : s.gathering c = some g) (ask : g.ask = .evaluate) :
    ∃ t, exec (.channelEvaluation c) s = .next t ∧ t.cst = (s.evaluate c).cst ∧ t.mpShow = (s.evaluate c).mpShow ∧
      t.gathering c = some { g with ask := .select (s.evaluate c).cst.shown[c] } := by
  refine ⟨(s.evaluate c).withGather c { g with ask := .select (s.evaluate c).cst.shown[c] }, ?_, rfl, rfl,
    State.gathering_withGather h _⟩
  show Host.Outcome.next (s.askShown c) = _
  simp only [State.askShown, h, ask]

section evaluate

variable (s : State) (c : Channel)

theorem State.evaluate_other {d : Channel} (h : d ≠ c) :
    (s.evaluate c).cst.lists[d] = s.cst.lists[d] ∧ (s.evaluate c).cst.shown[d] = s.cst.shown[d] := by
  obtain ⟨lists, -, -, shown⟩ := s.evaluate_cst c
  rw [lists, shown, channels_set, channels_set, if_neg h.symm, if_neg h.symm]
  exact ⟨rfl, rfl⟩

/-- An evaluation that retires a cue makes the free-pool-low test (R46). -/
theorem State.evaluate_tested (retires : (activatedList s.cst.lists[c] s.cst.shown[c] s.showTime s.now).length < (s.cst.lists[c]).length) :
    s.PoolTested s.mpShow (s.evaluate c).cst.free (s.evaluate c).cst.poolLowArmed (s.evaluate c).mpShow := by
  rw [State.evaluate, if_pos retires, State.poolLowTest_free]
  exact State.poolLowTest_tested_of rfl

/-- An evaluation that retires none makes no test (R46). -/
theorem State.evaluate_not_tested
    (stays : (s.cst.lists[c]).length ≤ (activatedList s.cst.lists[c] s.cst.shown[c] s.showTime s.now).length) :
    (s.evaluate c).cst.poolLowArmed = s.cst.poolLowArmed ∧ (s.evaluate c).mpShow = s.mpShow := by
  rw [State.evaluate, if_neg (Nat.not_lt.mpr stays)]
  exact ⟨rfl, rfl⟩

end evaluate

/-- The show value by an ACTIVE cue at the head of its list (R50). -/
theorem listValue_active {k : Cue} {f : Value} {a : Option Time} (active : k.state = .active f a) (post : List Cue) (shown : Value)
    (t : Nat) (now : Time) : listValue (k :: post) shown t now =
      if k.installed = false ∧ t < k.start then shown
      else curveValue k.curve f k.target (k.elapsedAt a t now) k.duration := by
  have found : (k :: post).find? Cue.isActive = some k := List.find?_cons_of_pos (by simp [Cue.isActive, Cue.isPending, active])
  simp only [listValue, found, active]

theorem listValue_pending {l : List Cue} (pending : ∀ x ∈ l, x.isPending = true) (shown : Value) (t : Nat) (now : Time) :
    listValue l shown t now = shown := by
  have none_ : l.find? Cue.isActive = none := List.find?_eq_none.mpr fun x hx => by simp [Cue.isActive, pending x hx]
  rw [listValue, none_]

/-! ### The latest cue due is PENDING (R49) -/

section activation

variable {pre post : List Cue} {k : Cue} {t : Nat} (before : ∀ x ∈ pre, x.start ≤ t) (due : k.start ≤ t)
  (ahead : ∀ x ∈ post, t < x.start ∧ x.isPending = true)

include before due ahead

theorem filter_due_of_split : (pre ++ k :: post).filter (fun x => x.start ≤ t) = pre ++ [k] := by
  rw [List.filter_append, List.filter_cons_of_pos (by simpa using due),
    List.filter_eq_self.mpr fun x hx => decide_eq_true (before x hx),
    List.filter_eq_nil_iff.mpr fun x hx => by simpa using (ahead x hx).1]

theorem lastDue_of_split : lastDue (pre ++ k :: post) t = some k := by
  rw [lastDue, filter_due_of_split before due ahead, List.getLast?_concat]

variable (pending : k.state = .pending)

include pending

/-- The cue comes into force before the cues that are ahead, and the ones before it are retired (R49). -/
theorem activatedList_of_split (shown : Value) (now : Time) : activatedList (pre ++ k :: post) shown t now =
    { k with state := .active shown (if k.installed then some now else none) } :: post := by
  have waits : k.isPending = true := by rw [Cue.isPending, pending]
  simp only [activatedList, lastDue_of_split before due ahead, waits, if_true]
  rw [List.filter_append, List.filter_cons_of_neg (by simp [due]),
    List.filter_eq_nil_iff.mpr fun x hx => by simp [before x hx],
    List.filter_eq_self.mpr fun x hx => by simp [ahead x hx], List.nil_append]

/-- The PENDING cues before it have never been in force (R49). -/
theorem skippedCues_of_split : skippedCues (pre ++ k :: post) t = (pre.filter Cue.isPending).length := by
  have waits : k.isPending = true := by rw [Cue.isPending, pending]
  have both : (pre ++ k :: post).filter (fun x => decide (x.start ≤ t) && x.isPending) = (pre ++ [k]).filter Cue.isPending := by
    rw [← filter_due_of_split before due ahead, List.filter_filter]
    simp only [Bool.and_comm]
  simp only [skippedCues, lastDue_of_split before due ahead, waits, if_true, both]
  rw [List.filter_append, List.filter_cons_of_pos waits, List.filter_nil, List.length_append, List.length_singleton,
    Nat.add_sub_cancel]

end activation

/-- A cue that has just come into force is at the beginning of its ramp, a LOADED one at its elapsed show time (R50). -/
theorem listValue_activated {k : Cue} {t : Nat} (due : k.start ≤ t) (post : List Cue) (shown : Value) (now : Time) :
    listValue ({ k with state := .active shown (if k.installed then some now else none) } :: post) shown t now =
      if k.origin = .loaded then curveValue k.curve shown k.target (min (t - k.start) k.duration) k.duration
      else curveValue k.curve shown k.target 0 k.duration := by
  rw [listValue_active rfl, if_neg (by simp [due])]
  by_cases loaded : k.origin = .loaded
  · simp [Cue.elapsedAt, Cue.installed, loaded]
  · simp [Cue.elapsedAt, Cue.installed, loaded, elapsed]

/-- Settles O30: the evaluation of a list split at its latest due cue. -/
theorem evaluationActivatesTheLatestDueCue : Obligations.EvaluationActivatesTheLatestDueCue := by
  intro s c g pre post k now h ask time split pending before due ahead
  have new : activatedList s.cst.lists[c] s.cst.shown[c] s.showTime s.now =
      { k with state := .active s.cst.shown[c] (if k.installed then some s.now else none) } :: post := by
    rw [split, show s.showTime = now from time.symm, activatedList_of_split before due ahead pending]
  obtain ⟨t, step, cst, port, gathering⟩ := exec_channelEvaluation h ask
  obtain ⟨lists, free, skipped, shown⟩ := s.evaluate_cst c
  simp only [new] at lists free skipped shown
  have old : (s.cst.lists[c]).length = pre.length + (post.length + 1) := by rw [split, List.length_append, List.length_cons]
  refine ⟨t, step, ?_, ?_, ?_, ?_, ?_, ?_, ?_, ?_⟩
  all_goals rw [cst]
  · rw [lists, channels_set, if_pos rfl]
    by_cases loaded : k.origin = .loaded <;> simp [Cue.installed, loaded]
  · exact fun d other => s.evaluate_other c other
  · rw [free, old, List.length_cons, ← Nat.add_assoc, Nat.add_sub_cancel]
  · rintro rfl
    rw [port]
    exact s.evaluate_not_tested c (by rw [new, old, List.length_cons, List.length_nil, Nat.zero_add])
  · intro retired
    rw [port]
    refine s.evaluate_tested c ?_
    have := List.length_pos_of_ne_nil retired
    rw [new, old, List.length_cons]
    omega
  · rw [skipped, split, show s.showTime = now from time.symm, skippedCues_of_split before due ahead pending]
    rfl
  · rw [shown, channels_set, if_pos rfl, show s.showTime = now from time.symm, listValue_activated due]
  · exact gathering

/-! ### No PENDING cue is due (R48, R50) -/

section following

variable {l : List Cue} {t : Nat} (ahead : ∀ x ∈ l, x.isPending = true → t < x.start)

include ahead

theorem lastDue_not_pending {k : Cue} (h : lastDue l t = some k) : k.isPending = false := by
  obtain ⟨mem, due⟩ := lastDue_mem h
  exact Bool.eq_false_iff.mpr fun pending => absurd (ahead k mem pending) (Nat.not_lt.mpr due)

theorem activatedList_of_ahead (shown : Value) (now : Time) : activatedList l shown t now = l := by
  unfold activatedList
  split
  · rename_i due
    rw [lastDue_not_pending ahead due, if_neg (by decide)]
  · rfl

theorem skippedCues_of_ahead : skippedCues l t = 0 := by
  unfold skippedCues
  split
  · rename_i due
    rw [lastDue_not_pending ahead due, if_neg (by decide)]
  · rfl

end following

/-- An evaluation with no PENDING cue due writes only the show value, and holds the skipped count at its limit (R49, R50). -/
theorem State.evaluate_of_ahead {s : State} {c : Channel}
    (ahead : ∀ x ∈ s.cst.lists[c], x.isPending = true → s.showTime < x.start) :
    s.evaluate c = s.withCst { s.cst with
      shown := s.cst.shown.set c (listValue s.cst.lists[c] s.cst.shown[c] s.showTime s.now)
      skipped := min s.cst.skipped 4294967295 } := by
  unfold State.evaluate
  simp only [activatedList_of_ahead ahead, skippedCues_of_ahead ahead, Nat.lt_irrefl, if_false, Nat.add_zero]
  simp [Cst.withList, Config.count32Max]

/-- Settles O31: no list changes, and the show value is read off the list. -/
theorem evaluationFollowsTheActiveCue : Obligations.EvaluationFollowsTheActiveCue := by
  intro s c g post now h ask time ahead
  have later : s.showTime = now := time.symm
  obtain ⟨t, step, cst, port, gathering⟩ := exec_channelEvaluation h ask
  refine ⟨fun list => ⟨t, step, ?_⟩, fun k f a list active => ⟨t, step, ?_⟩⟩
  · have evaluated := State.evaluate_of_ahead (s := s) (c := c) fun x hx _ => later ▸ (ahead x (list ▸ hx)).1
    rw [list, listValue_pending fun x hx => (ahead x hx).2] at evaluated
    rw [cst, port, gathering, evaluated]
    simp
  · have evaluated := State.evaluate_of_ahead (s := s) (c := c) fun x hx pending => by
      rw [list] at hx
      rcases List.mem_cons.mp hx with rfl | hx
      · simp [Cue.isPending, active] at pending
      · exact later ▸ (ahead x hx).1
    rw [list, listValue_active active, later] at evaluated
    have shown : (s.evaluate c).cst.shown[c] = if k.installed = false ∧ now < k.start then s.cst.shown[c]
        else curveValue k.curve f k.target (k.elapsedAt a now s.now) k.duration := by
      rw [evaluated, State.withCst_cst, channels_set, if_pos rfl]
    have others := fun d other => (s.evaluate_other c (d := d) other).2
    rw [cst, port, gathering]
    refine ⟨by rw [evaluated]; rfl, by rw [evaluated]; rfl, by rw [evaluated]; rfl, by rw [evaluated]; rfl, by rw [evaluated]; rfl,
      others, ?_, ?_, ?_, rfl⟩
    · intro loaded waits
      rw [shown, if_pos ⟨by simp [Cue.installed, loaded], waits⟩]
    · intro loaded begun
      rw [shown, if_neg (by omega)]
      simp [Cue.elapsedAt, Cue.installed, loaded]
    · rintro since installed rfl
      rw [shown, if_neg (by simp [Cue.installed, installed])]
      simp [Cue.elapsedAt, Cue.installed, installed, elapsed]


end Sys2Proof.Machine
end

section
namespace Sys2Proof.Machine

/-! ## Entries taken in order (R41, R45) -/

section takenInOrder

variable {α : Type} {One Two : State → α → Taken → State → Prop} {P : Taken → Prop}

theorem TakenInOrder.imp (h : ∀ s a o t, One s a o t → Two s a o t) {as : List α} {s t : State} {os : List Taken}
    (taken : TakenInOrder One s as os t) : TakenInOrder Two s as os t := by
  induction as generalizing s os with
  | nil => exact taken
  | cons a as ih =>
    obtain ⟨o, rest, u, outcomes, one, later⟩ := taken
    exact ⟨o, rest, u, outcomes, h _ _ _ _ one, ih later⟩

/-- What holds of the outcome of every entry holds of every outcome. -/
theorem TakenInOrder.forall_outcome (h : ∀ s a o t, One s a o t → P o) {as : List α} {s t : State} {os : List Taken}
    (taken : TakenInOrder One s as os t) : ∀ o ∈ os, P o := by
  induction as generalizing s os with
  | nil =>
    obtain ⟨rfl, -⟩ := taken
    simp
  | cons a as ih =>
    obtain ⟨o, rest, u, rfl, one, later⟩ := taken
    exact List.forall_mem_cons.mpr ⟨h _ _ _ _ one, ih later⟩

theorem TakenInOrder.length_eq {as : List α} {s t : State} {os : List Taken} (taken : TakenInOrder One s as os t) :
    os.length = as.length := by
  induction as generalizing s os with
  | nil =>
    obtain ⟨rfl, -⟩ := taken
    rfl
  | cons a as ih =>
    obtain ⟨o, rest, u, rfl, -, later⟩ := taken
    rw [List.length_cons, List.length_cons, ih later]

/-- A list of one entry has the outcome of that entry. -/
theorem TakenInOrder.singleton {a : α} {s t : State} {os : List Taken} (taken : TakenInOrder One s [a] os t) :
    ∃ o, os = [o] ∧ One s a o t := by
  obtain ⟨o, rest, u, rfl, one, rfl, rfl⟩ := taken
  exact ⟨o, rfl, one⟩

end takenInOrder

/-- Every outcome is of one of the three kinds that a response counts (R45). -/
theorem taken_counts (os : List Taken) : os.count .first + os.count .second + refusedCount os = os.length := by
  unfold refusedCount
  induction os with
  | nil => rfl
  | cons o os ih =>
    cases o with
    | first => simp [Taken.isRefused]; omega
    | second => simp [Taken.isRefused]; omega
    | refused r => simp [List.filter_cons, Taken.isRefused]; omega

theorem takenResult_eq_ok (os : List Taken) : takenResult os = .ok ↔ refusedCount os = 0 := by
  unfold takenResult refusedCount
  rw [List.length_eq_zero_iff, List.filter_eq_nil_iff, ← List.any_eq_false]
  cases os.any Taken.isRefused <;> simp

/-! ## The checks of an entry (R42) -/

theorem Curve.code_le (k : Curve) : k.code ≤ 2 := by cases k <;> decide

theorem curveOf_code (k : Curve) : curveOf k.code = some k := by cases k <;> rfl

theorem curveOf_eq_none {n : Nat} (h : 2 < n) : curveOf n = none := by
  match n, h with
  | _ + 3, _ => rfl

theorem exists_curve {n : Nat} (h : n ≤ 2) : ∃ k : Curve, n = k.code := by
  match n, h with
  | 0, _ => exact ⟨.step, rfl⟩
  | 1, _ => exact ⟨.linear, rfl⟩
  | 2, _ => exact ⟨.ease, rfl⟩

theorem channelOf_val {n : Nat} {c : Channel} (h : n = c.val) : channelOf n = some c := by
  subst h
  exact dif_pos c.isLt

/-- An entry that passes the checks, decoded and clamped (R42). -/
theorem cueEntryOf_eq_some {entry : List Byte} {c : Channel} {curve : Curve} (channel : field entry 0 2 = c.val)
    (code : field entry 10 1 = curve.code) (start : field entry 2 4 ≤ 86399999) : cueEntryOf entry =
      some ⟨c, field entry 2 4, min (field entry 6 4) 600000, curve, decodeValue c ((entry.drop 11).take 5)⟩ := by
  unfold cueEntryOf
  rw [channelOf_val channel, code, curveOf_code]
  exact if_pos start

theorem cueEntryOf_eq_none {entry : List Byte}
    (h : 335 < field entry 0 2 ∨ 2 < field entry 10 1 ∨ 86399999 < field entry 2 4) : cueEntryOf entry = none := by
  unfold cueEntryOf
  rcases h with channel | code | start
  · rw [channelOf, dif_neg (by omega)]
  · rw [curveOf_eq_none code]
    cases channelOf (field entry 0 2) <;> rfl
  · split
    · exact if_neg (Nat.not_le.mpr start)
    · rfl

/-! ## One entry of a CUE_LOAD (R42, R43) -/

/-- The update keeps a PENDING cue PENDING, and an ACTIVE one ACTIVE with its from-value (R43). -/
theorem CueEntry.update_eq {e : CueEntry} {k : Cue} (h : k.start = e.start) :
    e.update k = ⟨k.start, e.duration, e.curve, e.target, .loaded, (e.update k).state⟩ ∧
      (k.state = .pending → (e.update k).state = .pending) ∧
      ∀ v a, k.state = .active v a → (e.update k).state = .active v none := by
  rw [CueEntry.update, if_pos h]
  exact ⟨rfl, fun pending => by simp only [pending], fun v a active => by simp only [active]⟩

/-- What a CUE_LOAD does with one entry, keeping the second law, and why it refuses one (R42, R43). -/
def State.LoadsOneLawfully (s : State) (entry : List Byte) (o : Taken) (t : State) : Prop :=
  (s.LoadsOne entry o t ∧ (s.CueLaw → t.CueLaw)) ∧ ∀ r, o = .refused r → r = .badArgument ∨ r = .poolFull

theorem loadEntry_loadsOne (s : State) (n : Tally) (entry : List Byte) :
    ∃ o, s.LoadsOneLawfully entry o (s.withCst (loadEntry (s.cst, n) entry).1) ∧ (loadEntry (s.cst, n) entry).2 = n.take o := by
  have law := (loadEntry_keepsCues s (s.cst, n) entry).lists
  by_cases bad : 335 < field entry 0 2 ∨ 2 < field entry 10 1 ∨ 86399999 < field entry 2 4
  · have refused : loadEntry (s.cst, n) entry = (s.cst, n.refuse .badArgument) := by
      rw [loadEntry, cueEntryOf_eq_none bad]
    rw [refused] at law ⊢
    refine ⟨.refused .badArgument, ⟨⟨⟨fun _ => ⟨rfl, rfl⟩, fun c curve e channel code he start => ?_⟩, law⟩, ?_⟩, rfl⟩
    · subst he
      have := curve.code_le
      have := c.isLt
      exact absurd bad (by dsimp only at start; omega)
    · rintro r h
      exact .inl (Taken.refused.inj h).symm
  · obtain ⟨channel, code, start⟩ : field entry 0 2 < 336 ∧ field entry 10 1 ≤ 2 ∧ field entry 2 4 ≤ 86399999 := by omega
    obtain ⟨curve, code⟩ := exists_curve code
    obtain ⟨k, hk, entryOf⟩ : ∃ k : CueEntry, k = ⟨⟨_, channel⟩, field entry 2 4, min (field entry 6 4) 600000, curve,
        decodeValue ⟨_, channel⟩ ((entry.drop 11).take 5)⟩ ∧ cueEntryOf entry = some k :=
      ⟨_, rfl, cueEntryOf_eq_some rfl code start⟩
    have stored : loadEntry (s.cst, n) entry = storeCue k s.cst n := by rw [loadEntry, entryOf]
    rw [stored] at law ⊢
    obtain ⟨o, counts, full, stores⟩ := storeCue_taken s k n
    refine ⟨o, ⟨⟨⟨fun h => absurd h bad, fun c curve' e channel' code' he _ lists => ?_⟩, law⟩, fun r h => .inr (full r h)⟩, counts⟩
    obtain rfl : c = k.channel := Fin.ext (by rw [← channel', hk])
    obtain rfl : curve' = k.curve := by
      rw [hk]
      exact Option.some.inj (by rw [← curveOf_code, ← code', code, curveOf_code])
    obtain rfl : e = k.cue := by rw [he, hk]; rfl
    obtain ⟨updates, inserts⟩ := stores lists
    refine ⟨fun pre x post split same => ?_, inserts⟩
    obtain ⟨second, store⟩ := updates pre x post split same
    obtain ⟨fields, pending, active⟩ := CueEntry.update_eq same
    exact ⟨second, _, fields, pending, active, store⟩

/-! ## The whole request (R41–R46) -/

theorem storeCue_other (e : CueEntry) (x : Cst) (n : Tally) {d : Channel} (h : d ≠ e.channel) :
    (storeCue e x n).1.lists[d] = x.lists[d] := by
  rcases storeCue_cases e x n with same | ⟨l, stored, -⟩
  · rw [same]
  · rw [stored, Cst.withList_lists, channels_set, if_neg h.symm]

/-- An entry changes of the cue store only lists and records. -/
theorem loadEntry_frame (acc : Cst × Tally) (entry : List Byte) : (loadEntry acc entry).1.shown = acc.1.shown ∧
    (loadEntry acc entry).1.skipped = acc.1.skipped ∧ (loadEntry acc entry).1.poolLowArmed = acc.1.poolLowArmed := by
  unfold loadEntry
  split
  · rename_i e _
    rcases storeCue_cases e acc.1 acc.2 with same | ⟨l, stored, -⟩
    · rw [same]
      exact ⟨rfl, rfl, rfl⟩
    · rw [stored]
      exact ⟨rfl, rfl, rfl⟩
  · exact ⟨rfl, rfl, rfl⟩

theorem foldl_loadEntry_frame (entries : List (List Byte)) (acc : Cst × Tally) :
    (entries.foldl loadEntry acc).1.shown = acc.1.shown ∧ (entries.foldl loadEntry acc).1.skipped = acc.1.skipped ∧
      (entries.foldl loadEntry acc).1.poolLowArmed = acc.1.poolLowArmed := by
  induction entries generalizing acc with
  | nil => exact ⟨rfl, rfl, rfl⟩
  | cons entry entries ih =>
    obtain ⟨shown, skipped, armed⟩ := ih (loadEntry acc entry)
    obtain ⟨shown1, skipped1, armed1⟩ := loadEntry_frame acc entry
    exact ⟨shown.trans shown1, skipped.trans skipped1, armed.trans armed1⟩

/-- The cue store after the entries of a CUE_LOAD, with the counts (R41). -/
def State.loaded (s : State) (body : List Byte) : Cst × Tally := (cueEntries body).foldl loadEntry (s.cst, Tally.zero)

/-- The free-pool-low test touches only its flag in the cue store (R46). -/
theorem State.poolLowTest_cst (s : State) : s.poolLowTest.cst = { s.cst with poolLowArmed := s.poolLowTest.cst.poolLowArmed } := by
  unfold State.poolLowTest
  split
  · rfl
  · split <;> rfl

/-- A CUE_LOAD that passes its tests takes its entries in order, counts what becomes of them and ends with the free-pool-low test
(R41–R46). -/
theorem cueLoad_taken {s : State} {tag : Byte} {body : List Byte} (h : s.InExecution .showPort 0x18 tag body)
    (some_ : body.length ≠ 0) (whole : body.length % 16 = 0) (few : body.length ≤ 1024) (estop : s.estop = false)
    (configured : s.seq.showState ≠ .unconfigured) (fading : s.seq.showState ≠ .fading) :
    ∃ os, TakenInOrder State.LoadsOneLawfully s (cueEntries body) os (s.withCst (s.loaded body).1) ∧
      Answers .cueLoad s .showPort 0x18 tag body (s.withCst (s.loaded body).1).poolLowTest (takenResult os)
        ([BitVec.ofNat 8 (os.count .first), BitVec.ofNat 8 (os.count .second), BitVec.ofNat 8 (refusedCount os),
          BitVec.ofNat 8 (refusedIndex os), BitVec.ofNat 8 (refusedReason os)] ++ bytes 2 (s.loaded body).1.free) := by
  obtain ⟨os, taken, counts⟩ := foldl_taken (One := State.LoadsOneLawfully) (f := loadEntry) (fun x => s.withCst x)
    (fun x n entry => loadEntry_loadsOne (s.withCst x) n entry) (cueEntries body) s.cst Tally.zero
  obtain ⟨first, second, refused, index, reason, result⟩ := Tally.of_outcomes counts
  refine ⟨os, taken, .of_reply rfl h ?_⟩
  unfold cueLoadRequest
  rw [if_neg (by omega), if_neg (by simp [estop]), if_neg (by simp [configured, fading])]
  dsimp only
  rw [first, second, refused, index, reason, result]
  simp only [bytes_one]
  rfl

/-- Settles O28: the entries in order by `cueLoad_taken`, and the test at the end. -/
theorem cueLoadCountsAddUp : Obligations.CueLoadCountsAddUp := by
  rintro s tag body entries h some_ whole few rfl estop configured fading
  obtain ⟨os, taken, answers⟩ := cueLoad_taken h some_ whole few estop configured fading
  obtain ⟨-, -, armed⟩ := foldl_loadEntry_frame (cueEntries body) (s.cst, Tally.zero)
  refine ⟨_, _, os, taken.imp fun _ _ _ _ one => one.1, ?_, ?_, takenResult_eq_ok os,
    taken.forall_outcome fun _ _ _ _ one => one.2, (State.poolLowTest_within _).mono (by simp), State.poolLowTest_cst _, ?_⟩
  · rw [State.poolLowTest_free]
    exact answers
  · rw [taken_counts, taken.length_eq, cueEntries, pieces, List.length_map, List.length_range]
  · rw [State.poolLowTest_free]
    exact State.poolLowTest_tested_of armed

/-! ### One well-formed entry -/

/-- The entry of sixteen bytes read back (R41). -/
theorem cueBody_fields {c : Channel} {start duration : Nat} {curve : Curve} {v body : List Byte}
    (h : body = bytes 2 c.val ++ bytes 4 start ++ bytes 4 duration ++ bytes 1 curve.code ++ v) (early : start ≤ 86399999)
    (short : duration < 4294967296) (length : v.length = 5) :
    body.length = 16 ∧ field body 0 2 = c.val ∧ field body 2 4 = start ∧ field body 6 4 = duration ∧
      field body 10 1 = curve.code ∧ (body.drop 11).take 5 = v := by
  have channel := c.isLt
  have code := curve.code_le
  have value : (body.drop 11).take 5 = v := by
    rw [h, List.drop_left' (by simp), List.take_of_length_le (by omega)]
  refine ⟨by simp [h, length], ?_, ?_, ?_, ?_, value⟩
  all_goals rw [h]; simp only [List.append_assoc]
  · exact field_head _ 2 _ (by omega)
  · rw [field_skip _ _ _ _ (by simp), bytes_length, field_head _ 4 _ (by omega)]
  · rw [field_skip _ _ _ _ (by simp), field_skip _ _ _ _ (by simp), bytes_length, bytes_length, field_head _ 4 _ (by omega)]
  · rw [field_skip _ _ _ _ (by simp), field_skip _ _ _ _ (by simp), field_skip _ _ _ _ (by simp), bytes_length, bytes_length,
      bytes_length, field_head _ 1 _ (by omega)]

theorem cueEntries_of_length {body : List Byte} (h : body.length = 16) : cueEntries body = [body] := by
  simp [cueEntries, pieces, h]

/-- What a change of one list leaves, read through the free-pool-low test. -/
theorem State.poolLowTest_of_withCues {s : State} {x : Cst} {c : Channel} {l : List Cue} {free : Nat}
    (h : s.withCst x = s.withCues c l free) :
    x.free = free ∧ (s.withCst x).poolLowTest.cst.free = free ∧ (s.withCst x).poolLowTest.cst.lists[c] = l := by
  rw [State.poolLowTest_free, State.poolLowTest_lists]
  obtain rfl : x = (s.withCues c l free).cst := congrArg State.cst h
  exact ⟨rfl, rfl, (channels_set ..).trans (if_pos rfl)⟩

/-- Settles O27: a list of one entry, whose outcome `State.LoadsOne` gives. -/
theorem cueLoadStoresOneEntry : Obligations.CueLoadStoresOneEntry := by
  intro s tag c start duration curve v e body hbody h early short length estop configured fading law he
  obtain ⟨size, fChannel, fStart, fDuration, fCode, fValue⟩ := cueBody_fields hbody early short length
  obtain ⟨os, taken, answers⟩ := cueLoad_taken h (by omega) (by omega) (by omega) estop configured fading
  rw [cueEntries_of_length size] at taken
  obtain ⟨o, rfl, ⟨⟨-, loads⟩, -⟩, -⟩ := taken.singleton
  have entry : s.loaded body = storeCue ⟨c, start, min duration 600000, curve, decodeValue c v⟩ s.cst Tally.zero := by
    rw [State.loaded, cueEntries_of_length size, List.foldl_cons, List.foldl_nil, loadEntry,
      cueEntryOf_eq_some fChannel fCode (by omega), fStart, fDuration, fValue]
  obtain ⟨shown, skipped, armed⟩ := foldl_loadEntry_frame (cueEntries body) (s.cst, Tally.zero)
  obtain ⟨updates, inserts⟩ := loads c curve e fChannel fCode (by rw [fStart, fDuration, fValue, he]) (by rw [he]; exact early) law
  have same : e.start = start := by rw [he]
  rw [same] at updates inserts
  refine ⟨_, _, _, answers, fun d other => ?_, ?_, ?_, ?_, ?_, fun fresh => ?_⟩
  · rw [State.poolLowTest_lists, entry]
    exact storeCue_other _ _ _ other
  · rw [State.poolLowTest_shown]
    exact shown
  · rw [State.poolLowTest_skipped]
    exact skipped
  · rw [State.poolLowTest_free]
    exact State.poolLowTest_tested_of armed
  · intro pre k post split at_
    obtain ⟨rfl, k', fields, pending, active, store⟩ := updates pre k post split at_
    obtain ⟨records, free, list⟩ := State.poolLowTest_of_withCues store
    rw [records, free, list, fields, at_]
    exact ⟨rfl, rfl, rfl, _, rfl, rfl, rfl, rfl, rfl, rfl, pending, active⟩
  · obtain ⟨replaces, behind⟩ := inserts fresh
    refine ⟨fun k post split active later => ?_, fun before => ⟨fun empty => ?_, fun room => ?_⟩⟩
    · obtain ⟨rfl, store⟩ := replaces k post split active later
      obtain ⟨records, free, list⟩ := State.poolLowTest_of_withCues store
      rw [records, free, list]
      exact ⟨rfl, rfl, rfl, rfl⟩
    · obtain ⟨rfl, store⟩ := (behind before).1 empty
      have same : (s.loaded body).1 = s.cst := congrArg State.cst store
      rw [State.poolLowTest_lists, State.poolLowTest_free, State.withCst_cst, same, empty]
      exact ⟨rfl, rfl, rfl, rfl⟩
    · obtain ⟨rfl, store⟩ := (behind before).2 room
      obtain ⟨records, free, list⟩ := State.poolLowTest_of_withCues store
      rw [records, free, list]
      exact ⟨rfl, rfl, rfl, rfl⟩

end Sys2Proof.Machine
end

section
namespace Sys2Proof.Machine

/-! ## One entry of a list of channels (R64, R67, R70–R72) -/

/-- A statement about one entry, of a channel number up to 335. -/
theorem entry_of_channel {c : Channel} {P : Prop} {Q : Channel → Prop} (h : Q c) :
    (336 ≤ c.val → P) ∧ ∀ d : Channel, d.val = c.val → Q d :=
  ⟨fun beyond => absurd c.isLt (Nat.not_lt.mpr beyond), fun _ same => Fin.ext same ▸ h⟩

/-- A statement about one entry, of a number above 335. -/
theorem entry_beyond {n : Nat} (beyond : 336 ≤ n) {P : Prop} {Q : Channel → Prop} (h : P) :
    (336 ≤ n → P) ∧ ∀ d : Channel, d.val = n → Q d :=
  ⟨fun _ => h, fun d same => absurd d.isLt (by omega)⟩

/-- The same where the statement speaks of a time as well. -/
theorem entry_of_channel_at {c : Channel} {a : Time} {P : Prop} {Q : Channel → Time → Prop} (h : Q c a) :
    (336 ≤ c.val → P) ∧ ∀ (d : Channel) (x : Time), d.val = c.val → x = a → Q d x :=
  ⟨fun beyond => absurd c.isLt (Nat.not_lt.mpr beyond), fun _ _ same eq => Fin.ext same ▸ eq ▸ h⟩

section entries

variable {s : State} {n : Tally} {c : Channel}

/-! ### CLAIM (R64) -/

theorem State.claimChannel_locked {l : Lockout} (locked : s.cha.records[c].lockout = some l) :
    s.claimChannel n c = (s, n.refuse .channelLocked) := by
  simp only [State.claimChannel, locked, Option.isSome_some, reduceIte]

theorem State.claimChannel_claimed {k : Claim} (unlocked : s.cha.records[c].lockout = none)
    (claimed : s.cha.records[c].claim = some k) :
    s.claimChannel n c = (s.withRecord c { s.cha.records[c] with claim := some (s.refreshed k) }, n.two) := by
  simp only [State.claimChannel, unlocked, claimed, Option.isSome_none, Bool.false_eq_true, reduceIte]

theorem State.claimChannel_full (unlocked : s.cha.records[c].lockout = none) (unclaimed : s.cha.records[c].claim = none)
    (full : 64 ≤ s.cha.claimCount) : s.claimChannel n c = (s, n.refuse .claimLimit) := by
  simp only [State.claimChannel, unlocked, unclaimed, Option.isSome_none, Bool.false_eq_true, reduceIte]
  exact if_pos full

theorem State.claimChannel_new (unlocked : s.cha.records[c].lockout = none) (unclaimed : s.cha.records[c].claim = none)
    (room : s.cha.claimCount < 64) : s.claimChannel n c =
      ((s.withRecord c ⟨some ⟨s.currentOutput c, s.currentOutput c, s.now, 0, s.newLease⟩, none, none⟩).withClaimCount
        (s.cha.claimCount + 1), n.one) := by
  simp only [State.claimChannel, unlocked, unclaimed, Option.isSome_none, Bool.false_eq_true, reduceIte]
  exact if_neg (Nat.not_le.mpr room)

/-- A channel of a CLAIM is taken as `State.ClaimsOne` says. -/
theorem State.claimChannel_claimsOne (s : State) (n : Tally) (c : Channel) :
    ∃ o, s.ClaimsOne c.val o (s.claimChannel n c).1 ∧ (s.claimChannel n c).2 = n.take o := by
  cases locked : s.cha.records[c].lockout with
  | some l =>
    rw [State.claimChannel_locked locked]
    exact ⟨.refused .channelLocked, entry_of_channel_at (by simp [-Fin.getElem_fin, locked]), rfl⟩
  | none =>
    cases claimed : s.cha.records[c].claim with
    | some k =>
      rw [State.claimChannel_claimed locked claimed]
      refine ⟨.second, entry_of_channel_at ⟨fun h => absurd locked h, fun _ => ⟨fun k' same => ⟨rfl, ?_⟩, ?_⟩⟩, rfl⟩
      · obtain rfl : k = k' := Option.some.inj (claimed ▸ same)
        rfl
      · simp [-Fin.getElem_fin, claimed]
    | none =>
      rcases Nat.lt_or_ge s.cha.claimCount 64 with room | full
      · rw [State.claimChannel_new locked claimed room]
        refine ⟨.first, entry_of_channel_at ?_, rfl⟩
        simp [-Fin.getElem_fin, locked, claimed, room, State.newLease, after]
      · rw [State.claimChannel_full locked claimed full]
        refine ⟨.refused .claimLimit, entry_of_channel_at ?_, rfl⟩
        simp [-Fin.getElem_fin, locked, claimed, full]

theorem State.claimsOne_beyond (s : State) (n : Nat) (beyond : 336 ≤ n) : s.ClaimsOne n (.refused .badArgument) s :=
  ⟨fun _ => ⟨rfl, rfl⟩, fun c _ same => absurd c.isLt (by omega)⟩

/-! ### RELEASE (R67) -/

theorem State.releaseChannel_claimed {k : Claim} (claimed : s.cha.records[c].claim = some k) :
    s.releaseChannel n c = (s.endClaim c k, n.one) := by
  simp only [State.releaseChannel, claimed]

theorem State.releaseChannel_unclaimed (unclaimed : s.cha.records[c].claim = none) :
    s.releaseChannel n c = (s, n.two) := by
  simp only [State.releaseChannel, unclaimed]

/-- A channel of a RELEASE is taken as `State.ReleasesOne` says. -/
theorem State.releaseChannel_releasesOne (s : State) (n : Tally) (c : Channel) :
    ∃ o, s.ReleasesOne c.val o (s.releaseChannel n c).1 ∧ (s.releaseChannel n c).2 = n.take o := by
  cases claimed : s.cha.records[c].claim with
  | none =>
    rw [State.releaseChannel_unclaimed claimed]
    exact ⟨.second, entry_of_channel (by simp [-Fin.getElem_fin, claimed]), rfl⟩
  | some k =>
    rw [State.releaseChannel_claimed claimed]
    refine ⟨.first, entry_of_channel ⟨by simp [-Fin.getElem_fin, claimed], fun k' same => ⟨rfl, ?_⟩⟩, rfl⟩
    obtain rfl : k = k' := Option.some.inj (claimed ▸ same)
    rintro _ rfl
    rfl

/-- The claims whose lease has expired (R68). -/
theorem State.lapsedClaim_eq_some {k : Claim} :
    s.lapsedClaim c = some k ↔ s.cha.records[c].claim = some k ∧ reached s.now k.lease = true := by
  unfold State.lapsedClaim
  cases s.cha.records[c].claim with
  | none => simp
  | some k' =>
    simp only [Option.ite_none_right_eq_some, Option.some.injEq]
    exact ⟨fun ⟨lapsed, same⟩ => ⟨same, same ▸ lapsed⟩, fun ⟨same, lapsed⟩ => ⟨same ▸ lapsed, same⟩⟩

/-! ### LOCKOUT (R69–R71) -/

@[simp] theorem State.loseClaim_cha (s : State) (c : Channel) (reason : Nat) :
    (s.loseClaim c reason).cha = { s.cha with claimCount := s.cha.claimCount - s.cha.records[c].claimed } := by
  unfold State.loseClaim Ownership.claimed
  split
  · rename_i claimed
    rw [claimed]
    rfl
  · rename_i unclaimed
    rw [unclaimed]
    rfl

/-- CLAIM_LOST goes to the CONSOLE port for a claim removed (R70). -/
theorem State.loseClaim_mpConsole (s : State) (c : Channel) (reason : Nat) : (s.loseClaim c reason).mpConsole =
    if s.cha.records[c].claim = none then s.mpConsole
    else s.mpConsole.place ⟨.claimLost, c.val, reason, s.clock.now⟩ := by
  unfold State.loseClaim
  split
  · rename_i claimed
    rw [claimed, if_neg nofun]
    rfl
  · rename_i unclaimed
    rw [if_pos unclaimed]

/-- CHA's part of one channel of a LOCKOUT (R70). -/
theorem State.lockChannel_cha (l : Channel → Lockout) (s : State) (n : Tally) (c : Channel) :
    (State.lockChannel l s n c).1.cha =
      ⟨s.cha.records.set c ⟨none, some (l c), none⟩, s.cha.claimCount - s.cha.records[c].claimed⟩ := by
  rw [State.lockChannel, (State.holdOffChannel_within ..).same .cha (by decide), State.withRecord, State.withCha_cha,
    State.loseClaim_cha]

/-- A drive that stays governed keeps its pump's commanded speed (R98). -/
theorem State.changeDrive_commanded {i : Pump} {d : DriveRecord} (governed : d.governed = true) (j : Pump) :
    (s.changeDrive i d).pgv.pumps[j].commanded = s.pgv.pumps[j].commanded := by
  rw [State.changeDrive_pump]
  split <;> rfl

/-- A drive taken down keeps its commanded speed until it is off (R98, R133). -/
theorem State.takePowerOff_commanded {i : Pump} (present : s.dlc[i].present = true) (j : Pump) :
    (s.takePowerOff i).pgv.pumps[j].commanded = s.pgv.pumps[j].commanded := by
  have governed : ∀ p, { s.dlc[i] with power := .poweringDown, pending := p }.governed = true := fun p => by
    simp [-Fin.getElem_fin, DriveRecord.governed, present]
  unfold State.takePowerOff
  simp only
  split
  · exact State.changeDrive_commanded (governed _) j
  · exact State.changeDrive_commanded (governed _) j
  · exact State.changeDrive_commanded (governed _) j
  all_goals rfl

theorem State.holdOff_drive (s : State) (i j : Pump) : (s.holdOff i).dlc[j] =
    if i = j ∧ s.dlc[j].present = true ∧ (s.dlc[j].power = .on ∨ s.dlc[j].power = .poweringUp) then
      { s.dlc[j] with
        power := .poweringDown
        pending := some ⟨.powerOff, s.clock.now,
          if s.dlc[j].power = .on then .on else (s.dlc[j].pending.map PendingCommand.prior).getD .poweringUp, false⟩ }
    else s.dlc[j] := by
  unfold State.holdOff
  by_cases same : i = j
  · subst same
    cases present : s.dlc[i].present <;> simp [-Fin.getElem_fin, present, State.takePowerOff_drive]
  · simp only [same, false_and, reduceIte]
    split
    · simp only [State.takePowerOff_drive, same, false_and, reduceIte]
    · rfl

theorem State.holdOff_commanded (s : State) (i j : Pump) :
    (s.holdOff i).pgv.pumps[j].commanded = s.pgv.pumps[j].commanded := by
  unfold State.holdOff
  split
  · rename_i present
    exact State.takePowerOff_commanded present j
  · rfl

/-- What a lockout on channel `c` does to a drive: on a pump with held-off set the pump's own is taken down (R71). -/
theorem State.holdOffChannel_drive (s : State) (c : Channel) (l : Lockout) (i : Pump) : (s.holdOffChannel c l).dlc[i] =
    if pumpChannel i = c ∧ l.heldOff = true ∧ s.dlc[i].present = true ∧
        (s.dlc[i].power = .on ∨ s.dlc[i].power = .poweringUp) then
      { s.dlc[i] with
        power := .poweringDown
        pending := some ⟨.powerOff, s.clock.now,
          if s.dlc[i].power = .on then .on else (s.dlc[i].pending.map PendingCommand.prior).getD .poweringUp, false⟩ }
    else s.dlc[i] := by
  unfold State.holdOffChannel
  by_cases pump : c.val < 16
  · have same : (⟨c.val, pump⟩ : Pump) = i ↔ pumpChannel i = c := by
      rw [Fin.ext_iff, Fin.ext_iff]
      exact eq_comm
    rw [dif_pos pump]
    cases held : l.heldOff
    · simp only [Bool.false_eq_true, false_and, and_false, reduceIte]
    · simp only [State.holdOff_drive, same, true_and, reduceIte]
  · rw [dif_neg pump, if_neg]
    rintro ⟨rfl, -⟩
    exact pump i.isLt

theorem State.holdOffChannel_commanded (s : State) (c : Channel) (l : Lockout) (i : Pump) :
    (s.holdOffChannel c l).pgv.pumps[i].commanded = s.pgv.pumps[i].commanded := by
  unfold State.holdOffChannel
  split
  · split
    · exact State.holdOff_commanded ..
    · rfl
  · rfl

/-! ### UNLOCK (R72) -/

theorem State.unlockChannel_locked {l : Lockout} (locked : s.cha.records[c].lockout = some l) :
    s.unlockChannel n c = (s.withRecord c { s.cha.records[c] with
      lockout := none
      rejoin := if s.estop then s.cha.records[c].rejoin
        else some ⟨l.value, s.now, s.tables.limits.rejoinTime c⟩ }, n.one) := by
  simp only [State.unlockChannel, locked]

theorem State.unlockChannel_unlocked (unlocked : s.cha.records[c].lockout = none) : s.unlockChannel n c = (s, n.two) := by
  simp only [State.unlockChannel, unlocked]

/-- A channel of an UNLOCK is taken as `State.UnlocksOne` says. -/
theorem State.unlockChannel_unlocksOne (s : State) (n : Tally) (c : Channel) :
    ∃ o, s.UnlocksOne c.val o (s.unlockChannel n c).1 ∧ (s.unlockChannel n c).2 = n.take o := by
  cases locked : s.cha.records[c].lockout with
  | none =>
    rw [State.unlockChannel_unlocked locked]
    exact ⟨.second, entry_of_channel (by simp [-Fin.getElem_fin, locked]), rfl⟩
  | some l =>
    rw [State.unlockChannel_locked locked]
    refine ⟨.first, entry_of_channel ⟨by simp [-Fin.getElem_fin, locked], fun l' same => ⟨rfl, ?_⟩⟩, rfl⟩
    obtain rfl : l = l' := Option.some.inj (locked ▸ same)
    rfl

end entries

/-! ## The removal of a complete rejoin (R61) -/

/-- A rejoin that is not in force, or not complete, stays (R61). -/
theorem State.dropCompleteRejoin_of_kept {s : State} {c : Channel} (kept : s.cha.records[c].lockout = none →
    s.cha.records[c].claim = none → ∀ r, s.cha.records[c].rejoin = some r → r.complete s.now = false) :
    s.dropCompleteRejoin c = s := by
  unfold State.dropCompleteRejoin
  simp only
  split
  · rename_i unlocked unclaimed rejoining
    rw [kept unlocked unclaimed _ rejoining, if_neg (by decide)]
  · rfl

/-- A complete rejoin in force is removed (R61). -/
theorem State.dropCompleteRejoin_of_complete {s : State} {c : Channel} {r : Rejoin} (unlocked : s.cha.records[c].lockout = none)
    (unclaimed : s.cha.records[c].claim = none) (rejoining : s.cha.records[c].rejoin = some r)
    (complete : r.complete s.now = true) : s.dropCompleteRejoin c = s.withRecord c ⟨none, none, none⟩ := by
  simp only [State.dropCompleteRejoin, unlocked, unclaimed, rejoining, complete, reduceIte]

/-- All that the removal can do: nothing, or the record of a channel without a claim becomes empty (R61). -/
theorem State.dropCompleteRejoin_cases (s : State) (c : Channel) : s.dropCompleteRejoin c = s ∨
    (s.cha.records[c].claim = none ∧ s.dropCompleteRejoin c = s.withRecord c ⟨none, none, none⟩) := by
  unfold State.dropCompleteRejoin
  simp only
  split
  · rename_i unlocked unclaimed _
    split
    · rw [unlocked, unclaimed]
      exact .inr ⟨rfl, rfl⟩
    · exact .inl rfl
  · exact .inl rfl

end Sys2Proof.Machine
end

section
namespace Sys2Proof.Machine

/-! ## The eighth law under changes of the ownership records (R59) -/

theorem Cha.OwnershipLaw.exclusive {x : Cha} (law : x.OwnershipLaw) (c : Channel) (claimed : x.records[c].claim.isSome = true) :
    x.records[c].lockout = none := law.1 c claimed

theorem Cha.OwnershipLaw.limit {x : Cha} (law : x.OwnershipLaw) : x.claimCount ≤ 64 := law.2.2

/-- A channel's claim is one of those counted. -/
theorem Cha.OwnershipLaw.claimed_le {x : Cha} (law : x.OwnershipLaw) (c : Channel) : x.records[c].claimed ≤ x.claimCount := by
  obtain ⟨-, count, -⟩ := law
  have removed := claimsIn_set x.records c .empty
  have none_left : Ownership.empty.claimed = 0 := rfl
  omega

/-- One record replaced by one that has no claim beside a lockout, and the claim count moved with it. -/
theorem Cha.OwnershipLaw.set {x : Cha} (law : x.OwnershipLaw) (c : Channel) {o : Ownership} {n : Nat}
    (one : o.claim.isSome = true → o.lockout = none) (count : n + x.records[c].claimed = x.claimCount + o.claimed)
    (limit : n ≤ 64) : Cha.OwnershipLaw ⟨x.records.set c o, n⟩ := by
  obtain ⟨exclusive, counted, -⟩ := law
  refine ⟨fun d => ?_, ?_, limit⟩
  · rw [channels_set]
    split
    · exact one
    · exact exclusive d
  · have moved := claimsIn_set x.records c o
    show n = claimsIn (x.records.set c o)
    omega

/-- A record replaced by one with a claim where it had one and without where it had none. -/
theorem Cha.OwnershipLaw.set_same {x : Cha} (law : x.OwnershipLaw) (c : Channel) {o : Ownership}
    (one : o.claim.isSome = true → o.lockout = none) (same : o.claimed = x.records[c].claimed) :
    Cha.OwnershipLaw { x with records := x.records.set c o } :=
  law.set c one (by rw [same]) law.limit

/-- A record replaced by one without a claim. -/
theorem Cha.OwnershipLaw.set_unclaimed {x : Cha} (law : x.OwnershipLaw) (c : Channel) {o : Ownership}
    (unclaimed : o.claim = none) : Cha.OwnershipLaw ⟨x.records.set c o, x.claimCount - x.records[c].claimed⟩ := by
  have none_left : o.claimed = 0 := by rw [Ownership.claimed, unclaimed]; rfl
  have counted := law.claimed_le c
  exact law.set c (by simp [unclaimed]) (by omega) ((Nat.sub_le ..).trans law.limit)

/-- A table of records none of which has a claim. -/
theorem ownershipLaw_of_unclaimed {f : Channel → Ownership} (unclaimed : ∀ c, (f c).claim = none) :
    Cha.OwnershipLaw ⟨tabulate f, 0⟩ := by
  refine ⟨fun c claimed => ?_, ?_, Nat.zero_le _⟩
  · rw [Fin.getElem_fin, getElem_tabulate, unclaimed] at claimed
    exact absurd claimed (by decide)
  · rw [claimsIn, toList_tabulate, eq_comm, List.length_eq_zero_iff, List.filter_eq_nil_iff]
    intro o mem
    obtain ⟨c, rfl⟩ := List.mem_ofFn.mp mem
    rw [unclaimed]
    decide

/-! ### The channels of a list -/

section keepsOwnership

variable {s t : State}

/-- A list of channels keeps the law when every channel of it does. -/
theorem State.eachChannel_ownershipLaw {f : State → Tally → Channel → State × Tally}
    (keeps : ∀ s n c, s.cha.OwnershipLaw → (f s n c).1.cha.OwnershipLaw) (ns : List Nat) (law : s.cha.OwnershipLaw) :
    (s.eachChannel f ns).1.cha.OwnershipLaw := by
  unfold State.eachChannel
  generalize Tally.zero = n
  induction ns generalizing s n with
  | nil => exact law
  | cons a ns ih =>
    refine ih (s := (perChannel f (s, n) a).1) ?_ (perChannel f (s, n) a).2
    unfold perChannel
    split
    · exact keeps _ _ _ law
    · exact law

theorem State.claimChannel_ownershipLaw (s : State) (n : Tally) (c : Channel) (law : s.cha.OwnershipLaw) :
    (s.claimChannel n c).1.cha.OwnershipLaw := by
  cases locked : s.cha.records[c].lockout with
  | some l =>
    rw [State.claimChannel_locked locked]
    exact law
  | none =>
    cases claimed : s.cha.records[c].claim with
    | some k =>
      rw [State.claimChannel_claimed locked claimed]
      exact law.set_same c (fun _ => locked) (by rw [Ownership.claimed, Ownership.claimed, claimed]; rfl)
    | none =>
      rcases Nat.lt_or_ge s.cha.claimCount 64 with room | full
      · rw [State.claimChannel_new locked claimed room]
        exact law.set c (fun _ => rfl) (by rw [Ownership.claimed, Ownership.claimed, claimed]; rfl) room
      · rw [State.claimChannel_full locked claimed full]
        exact law

theorem State.endClaim_ownershipLaw {c : Channel} {k : Claim} (claimed : s.cha.records[c].claim = some k)
    (law : s.cha.OwnershipLaw) : (s.endClaim c k).cha.OwnershipLaw := by
  have one : s.cha.records[c].claimed = 1 := by rw [Ownership.claimed, claimed]; rfl
  have ended := law.set_unclaimed c
    (o := { s.cha.records[c] with claim := none, rejoin := some ⟨k.output s.now, s.now, s.tables.limits.rejoinTime c⟩ }) rfl
  rwa [one] at ended

theorem State.releaseChannel_ownershipLaw (s : State) (n : Tally) (c : Channel) (law : s.cha.OwnershipLaw) :
    (s.releaseChannel n c).1.cha.OwnershipLaw := by
  cases claimed : s.cha.records[c].claim with
  | some k =>
    rw [State.releaseChannel_claimed claimed]
    exact State.endClaim_ownershipLaw claimed law
  | none =>
    rw [State.releaseChannel_unclaimed claimed]
    exact law

theorem State.lockChannel_ownershipLaw (l : Channel → Lockout) (s : State) (n : Tally) (c : Channel)
    (law : s.cha.OwnershipLaw) : (State.lockChannel l s n c).1.cha.OwnershipLaw := by
  rw [State.lockChannel_cha]
  exact law.set_unclaimed c rfl

theorem State.unlockChannel_ownershipLaw (s : State) (n : Tally) (c : Channel) (law : s.cha.OwnershipLaw) :
    (s.unlockChannel n c).1.cha.OwnershipLaw := by
  cases locked : s.cha.records[c].lockout with
  | some l =>
    rw [State.unlockChannel_locked locked]
    exact law.set_same c (fun _ => rfl) rfl
  | none =>
    rw [State.unlockChannel_unlocked locked]
    exact law

/-! ### Requests and the other operations -/

theorem claimRequest_ownershipLaw (body : List Byte) (law : s.cha.OwnershipLaw) :
    (claimRequest body s).1.cha.OwnershipLaw := by
  unfold claimRequest refuse
  split
  · exact law
  split
  · exact law
  · exact State.eachChannel_ownershipLaw State.claimChannel_ownershipLaw _ law

/-- A SET replaces a claim by a claim, on a channel without a lockout (R66). -/
theorem setRequest_ownershipLaw (body : List Byte) (law : s.cha.OwnershipLaw) : (setRequest body s).1.cha.OwnershipLaw := by
  unfold setRequest refuse
  simp only
  split
  · exact law
  split
  · exact law
  split
  · exact law
  split
  · exact law
  rename_i c _ _ unlocked
  split
  · exact law
  rename_i k claimed
  refine law.set_same c (fun _ => ?_) (by rw [Ownership.claimed, Ownership.claimed, claimed]; rfl)
  simpa [-Fin.getElem_fin] using unlocked

theorem releaseRequest_ownershipLaw (body : List Byte) (law : s.cha.OwnershipLaw) :
    (releaseRequest body s).1.cha.OwnershipLaw := by
  unfold releaseRequest refuse
  split
  · exact law
  · exact State.eachChannel_ownershipLaw State.releaseChannel_ownershipLaw _ law

theorem lockoutRequest_ownershipLaw (body : List Byte) (law : s.cha.OwnershipLaw) :
    (lockoutRequest body s).1.cha.OwnershipLaw := by
  unfold lockoutRequest refuse
  split
  · exact law
  · exact State.eachChannel_ownershipLaw (State.lockChannel_ownershipLaw _) _ law

theorem unlockRequest_ownershipLaw (body : List Byte) (law : s.cha.OwnershipLaw) :
    (unlockRequest body s).1.cha.OwnershipLaw := by
  unfold unlockRequest refuse
  split
  · exact law
  · exact State.eachChannel_ownershipLaw State.unlockChannel_ownershipLaw _ law

/-- The entry into an emergency stop leaves no claim (R73). -/
theorem State.enterStop_ownershipLaw (s : State) (cause : EntryCause) : (s.enterStop cause).cha.OwnershipLaw := by
  unfold State.enterStop
  simp only
  generalize State.flushAudio _ = u
  have same : u.chaEstop.cha = u.dropClaims.cha :=
    (State.Within.foldl (w := [.mpConsole]) (fun t (c : Channel) => t.raise_within .claimLost c.val 65535 (by decide))
      u.claimedChannels u.dropClaims).same .cha (by decide)
  rw [same]
  exact ownershipLaw_of_unclaimed fun _ => rfl

/-- The exit from an emergency stop leaves no claim (R75). -/
theorem State.leaveStop_ownershipLaw (s : State) (e : StopEntry) : (s.leaveStop e).cha.OwnershipLaw := by
  refine ownershipLaw_of_unclaimed fun c => ?_
  split <;> rfl

theorem State.judgeStop_ownershipLaw (cause : EntryCause) (law : s.cha.OwnershipLaw) :
    (s.judgeStop cause).cha.OwnershipLaw := by
  unfold State.judgeStop
  split
  · split
    · exact s.enterStop_ownershipLaw cause
    · exact law
  · split
    · exact law
    · exact s.leaveStop_ownershipLaw _

/-- A selection removes at most a rejoin (R61). -/
theorem State.askSelected_ownershipLaw (c : Channel) (law : s.cha.OwnershipLaw) : (s.askSelected c).cha.OwnershipLaw := by
  unfold State.askSelected
  split
  · split
    · refine (?_ : (s.dropCompleteRejoin c).cha.OwnershipLaw)
      rcases s.dropCompleteRejoin_cases c with same | ⟨unclaimed, removed⟩
      · rwa [same]
      · rw [removed]
        exact law.set_same c (fun _ => rfl) (by rw [Ownership.claimed, Ownership.claimed, unclaimed])
    all_goals exact law
  · exact law

/-! ### Every command -/

/-- A request served keeps the law when its owning block does. -/
theorem ownershipLaw_of_served {p : Port} {kind : Byte} {take : List Byte → State → Reply}
    (h : (.next (s.serve p kind take) : Host.Outcome State Fault Refusal) = .next t) (law : s.cha.OwnershipLaw)
    (keeps : ∀ body, (take body s).1.cha.OwnershipLaw) : t.cha.OwnershipLaw := by
  obtain rfl := Host.Outcome.next.inj h
  exact State.serveWhen_keeps (P := fun t => t.cha.OwnershipLaw) law fun _ _ _ _ => by
    rw [State.answer_cha]
    exact keeps _

/-- A request without a body. -/
theorem ownershipLaw_of_bodiless {p : Port} {kind : Byte} {take : State → Reply}
    (h : (.next (s.serve p kind (bodiless take)) : Host.Outcome State Fault Refusal) = .next t) (law : s.cha.OwnershipLaw)
    (keeps : (take s).1.cha.OwnershipLaw) : t.cha.OwnershipLaw := by
  refine ownershipLaw_of_served h law fun body => ?_
  unfold bodiless
  split
  · exact keeps
  · exact law

theorem ownershipLaw_of_next {u : State} (h : (.next u : Host.Outcome State Fault Refusal) = .next t)
    (law : u.cha.OwnershipLaw) : t.cha.OwnershipLaw := Host.Outcome.next.inj h ▸ law

theorem cha_ne_portPart (p : Port) : Part.cha ≠ portPart p := by cases p <;> decide

/-- Every command keeps the eighth law: most do not write CHA's records, RESTART, cold reset and the emergency stop leave no
claim, and the others change the records one channel at a time. -/
theorem exec_ownershipLaw {c : Instr} (h : exec c s = .next t) (law : s.cha.OwnershipLaw) : t.cha.OwnershipLaw := by
  by_cases other : Part.cha ∉ writes c
  · rwa [(exec_within h).same .cha other]
  cases c with
  | coldReset => exact ownershipLaw_of_next h State.reset_ownershipLaw
  | claim => exact ownershipLaw_of_served h law fun body => claimRequest_ownershipLaw body law
  | set => exact ownershipLaw_of_served h law fun body => setRequest_ownershipLaw body law
  | release => exact ownershipLaw_of_served h law fun body => releaseRequest_ownershipLaw body law
  | lockout => exact ownershipLaw_of_served h law fun body => lockoutRequest_ownershipLaw body law
  | unlock => exact ownershipLaw_of_served h law fun body => unlockRequest_ownershipLaw body law
  | estop => exact ownershipLaw_of_bodiless h law (State.judgeStop_ownershipLaw (s := s.withPlm _) .latch law)
  | estopReset => exact ownershipLaw_of_bodiless h law (State.judgeStop_ownershipLaw (s := s.withPlm _) .latch law)
  | restart => exact ownershipLaw_of_bodiless h law (ownershipLaw_of_unclaimed fun _ => rfl)
  | outputSelection ch => exact ownershipLaw_of_next h (State.askSelected_ownershipLaw ch law)
  | leaseExpiry ch =>
    refine ownershipLaw_of_next h ?_
    split
    · rename_i k lapsed
      obtain ⟨claimed, -⟩ := State.lapsedClaim_eq_some.mp lapsed
      exact State.endClaim_ownershipLaw claimed law
    · exact law
  | debounceDeadlineExpiry =>
    refine ownershipLaw_of_next h ?_
    split
    · exact State.judgeStop_ownershipLaw (s := s.withPlm _) .line law
    · exact law
  | _ => exact absurd (by simp [writes, cha_ne_portPart]) other

end keepsOwnership

/-- Settles O39: every command keeps the eighth law, and the queue of waiting commands does not touch it. -/
theorem everyStepKeepsTheOwnershipLaw : Obligations.EveryStepKeepsTheOwnershipLaw :=
  fun _ _ law h => step_keeps (P := fun s => s.cha.OwnershipLaw) (fun _ _ => id)
    (fun _ _ _ law h => exec_ownershipLaw h law) law h

end Sys2Proof.Machine
end

section
namespace Sys2Proof.Machine

/-! ## CLAIM (R63–R65) -/

/-- Settles O35: the channels in order by `State.claimChannel_claimsOne`. -/
theorem claimTakesOrRefreshesAChannel : Obligations.ClaimTakesOrRefreshesAChannel := by
  rintro s tag ns body some_ few small rfl h clear
  obtain ⟨os, taken, first, second, refused, index, reason, result⟩ :=
    State.eachChannel_taken State.claimChannel_claimsOne State.claimsOne_beyond s ns
  refine ⟨_, os, taken, .of_reply rfl h ?_⟩
  unfold claimRequest
  rw [channelListOk_flatMap ns some_ few, if_neg (by decide), clear, if_neg (by decide), channelList_flatMap ns small]
  simp only [first, second, refused, index, reason, result, bytes_one]
  rfl

/-! ## SET, RELEASE and the expiry of a lease (R66–R68) -/

/-- The fields of a SET (R66). -/
theorem setBody_fields {c : Channel} {v : List Byte} {ramp : Nat} (length : v.length = 5) (range : ramp < 4294967296) :
    (bytes 2 c.val ++ v ++ bytes 4 ramp).length = 11 ∧ field (bytes 2 c.val ++ v ++ bytes 4 ramp) 0 2 = c.val ∧
      ((bytes 2 c.val ++ v ++ bytes 4 ramp).drop 2).take 5 = v ∧ field (bytes 2 c.val ++ v ++ bytes 4 ramp) 7 4 = ramp := by
  have channel := c.isLt
  refine ⟨by simp [length], ?_, ?_, ?_⟩
  · rw [List.append_assoc, field_head _ 2 _ (by omega)]
  · rw [List.append_assoc, List.drop_left' (bytes_length ..), List.take_left' length]
  · rw [field_skip _ _ _ _ (by simp [length]), List.length_append, bytes_length, length, field_self 4 _ range]

/-- A SET of a claimed channel (R66). -/
theorem setRequest_taken {s : State} {c : Channel} {k : Claim} {v : List Byte} {ramp : Nat} (length : v.length = 5)
    (range : ramp < 4294967296) (clear : s.estop = false) (unlocked : s.cha.records[c].lockout = none)
    (claimed : s.cha.records[c].claim = some k) : setRequest (bytes 2 c.val ++ v ++ bytes 4 ramp) s =
      (s.withRecord c { s.cha.records[c] with
        claim := some ⟨k.output s.now, decodeValue c v, s.now, min ramp 60000, s.newLease⟩ }, .ok, bytes 4 s.newLease.toNat) := by
  obtain ⟨size, channel, value, time⟩ := setBody_fields (c := c) length range
  unfold setRequest
  rw [if_neg (not_not.mpr size), channelOf_val channel, value, time]
  simp only [clear, unlocked, claimed, Option.isSome_none, Bool.false_eq_true, reduceIte]

theorem State.releasesOne_beyond (s : State) (n : Nat) (beyond : 336 ≤ n) : s.ReleasesOne n (.refused .badArgument) s :=
  entry_beyond beyond ⟨rfl, rfl⟩

/-- The channels that the body of a RELEASE names (R67). -/
theorem releaseBody_channels {ns : List Nat} {body : List Byte} (h : (body = [] ∧ ns = List.range 336) ∨
      (1 ≤ ns.length ∧ ns.length ≤ 64 ∧ (∀ n ∈ ns, n < 65536) ∧ body = ns.flatMap (bytes 2))) :
    ¬ (body ≠ [] ∧ channelListOk body = false) ∧ (if body = [] then List.range 336 else channelList body) = ns := by
  rcases h with ⟨rfl, rfl⟩ | ⟨some_, few, small, rfl⟩
  · exact ⟨by simp, rfl⟩
  · have filled : ns.flatMap (bytes 2) ≠ [] := by
      rw [← List.length_pos_iff, flatMap_bytes_length]
      omega
    rw [channelListOk_flatMap ns some_ few, if_neg filled, channelList_flatMap ns small]
    exact ⟨by simp, rfl⟩

/-- Settles O36: SET by `setRequest_taken`, the expiry of a lease as `execLeaseExpiry` gives it, and the channels of a RELEASE in
order by `State.releaseChannel_releasesOne`. -/
theorem claimsAreSetReleasedAndLapse : Obligations.ClaimsAreSetReleasedAndLapse := by
  refine ⟨?_, ?_⟩
  · rintro s c k claimed _ rfl
    refine ⟨?_, fun lapsed => ?_⟩
    · rintro tag v ramp _ _ length range rfl h clear unlocked rfl
      exact .of_reply rfl h (setRequest_taken length range clear unlocked claimed)
    · have expired : s.lapsedClaim c = some k := State.lapsedClaim_eq_some.mpr ⟨claimed, decide_eq_true lapsed⟩
      show execLeaseExpiry c s = _
      rw [execLeaseExpiry, expired]
      rfl
  · intro s tag ns body list h
    obtain ⟨os, taken, first, second, refused, index, -, result⟩ :=
      State.eachChannel_taken State.releaseChannel_releasesOne State.releasesOne_beyond s ns
    obtain ⟨wellFormed, channels⟩ := releaseBody_channels list
    refine ⟨_, os, taken, .of_reply rfl h ?_⟩
    unfold releaseRequest
    rw [if_neg wellFormed, channels]
    simp only [first, second, refused, index, result, bytes_one, List.append_assoc]
    rfl

/-! ## LOCKOUT and UNLOCK (R69–R72) -/

/-- The fields of a LOCKOUT (R69). -/
theorem lockoutBody_fields {v : List Byte} (length : v.length = 5) (held reason : Byte) (rest : List Byte) :
    (v ++ [held, reason] ++ rest).take 5 = v ∧ field (v ++ [held, reason] ++ rest) 5 1 = held.toNat ∧
      field (v ++ [held, reason] ++ rest) 6 1 = reason.toNat ∧ (v ++ [held, reason] ++ rest).drop 7 = rest := by
  rw [List.append_assoc]
  refine ⟨List.take_left' length, ?_, ?_, ?_⟩
  · rw [field_skip _ _ _ _ (by omega), length]
    simp [field]
  · rw [field_skip _ _ _ _ (by omega), length]
    simp [field]
  · rw [← List.append_assoc, List.drop_left' (by simp [length])]

/-- The lockout of one entry (R69). -/
theorem lockoutOf_eq {v : List Byte} (length : v.length = 5) (held reason : Byte) (rest : List Byte) (c : Channel) :
    lockoutOf (v ++ [held, reason] ++ rest) c =
      ⟨decodeValue c v, decide (held ≠ 0) && decide (c.val < 16), reason.toNat⟩ := by
  obtain ⟨value, flag, code, -⟩ := lockoutBody_fields length held reason rest
  have pump : kindOf c = .pump ↔ c.val < 16 := by
    unfold kindOf
    split
    · simp [*]
    · split <;> simp [*]
  have set_ : held.toNat ≠ 0 ↔ held ≠ 0 := by simp [BitVec.toNat_eq]
  rw [lockoutOf, value, flag, code, decide_eq_decide.mpr pump, decide_eq_decide.mpr set_]

theorem State.lockChannel_mpConsole (l : Channel → Lockout) (s : State) (n : Tally) (c : Channel) :
    (State.lockChannel l s n c).1.mpConsole = if s.cha.records[c].claim = none then s.mpConsole
      else s.mpConsole.place ⟨.claimLost, c.val, (l c).reason, s.clock.now⟩ := by
  rw [State.lockChannel, (State.holdOffChannel_within ..).same .mpConsole (by decide),
    (State.withRecord_within ..).same .mpConsole (by decide), State.loseClaim_mpConsole]

/-- What one channel of a LOCKOUT does to a drive and to its pump's commanded speed (R71). -/
theorem State.lockChannel_drive (l : Channel → Lockout) (s : State) (n : Tally) (c : Channel) (i : Pump) :
    (State.lockChannel l s n c).1.pgv.pumps[i].commanded = s.pgv.pumps[i].commanded ∧
    (State.lockChannel l s n c).1.dlc[i] = if pumpChannel i = c ∧ (l c).heldOff = true ∧ s.dlc[i].present = true ∧
        (s.dlc[i].power = .on ∨ s.dlc[i].power = .poweringUp) then
      { s.dlc[i] with
        power := .poweringDown
        pending := some ⟨.powerOff, s.clock.now,
          if s.dlc[i].power = .on then .on else (s.dlc[i].pending.map PendingCommand.prior).getD .poweringUp, false⟩ }
    else s.dlc[i] := by
  have before : s.Within [.mpConsole, .cha] ((s.loseClaim c (l c).reason).withRecord c ⟨none, some (l c), none⟩) :=
    (State.loseClaim_within ..).next (State.withRecord_within ..) (by simp)
  rw [State.lockChannel, State.holdOffChannel_commanded, State.holdOffChannel_drive]
  rw [before.same .pgv (by decide), before.same .dlc (by decide), before.same .clock (by decide)]
  exact ⟨rfl, rfl⟩

/-- A channel of a LOCKOUT is taken as `State.LocksOne` says. -/
theorem State.lockChannel_locksOne {v : List Byte} {held reason : Byte} {l : Channel → Lockout}
    (lockout : ∀ c, l c = ⟨decodeValue c v, decide (held ≠ 0) && decide (c.val < 16), reason.toNat⟩)
    (s : State) (n : Tally) (c : Channel) : ∃ o, State.LocksOne v held reason s c.val o (State.lockChannel l s n c).1 ∧
      (State.lockChannel l s n c).2 = n.take o := by
  refine ⟨if s.cha.records[c].lockout.isSome then .second else .first, entry_of_channel ⟨rfl, ?_, ?_, ?_, ?_, ?_, ?_, ?_⟩, ?_⟩
  · exact (State.lockChannel_within ..).mono (by simp)
  · rw [State.lockChannel_cha, channels_set, if_pos rfl, lockout]
  · intro d other
    rw [State.lockChannel_cha, channels_set, if_neg other.symm]
  · rw [State.lockChannel_cha]
    rfl
  · intro unclaimed
    rw [State.lockChannel_mpConsole, if_pos unclaimed]
  · intro claimed
    rw [State.lockChannel_mpConsole, if_neg claimed, lockout]
  · intro i
    obtain ⟨commanded, drive⟩ := State.lockChannel_drive l s n c i
    have held_off : pumpChannel i = c → ((l c).heldOff = true ↔ held ≠ 0) := by
      rintro rfl
      have pump : (pumpChannel i).val < 16 := i.isLt
      simp [lockout, pump]
    refine ⟨commanded, ?_⟩
    rw [drive]
    exact if_congr (and_congr_right fun same => and_congr_left' (held_off same)) rfl rfl
  · unfold State.lockChannel
    cases s.cha.records[c].lockout <;> rfl

theorem State.locksOne_beyond (v : List Byte) (held reason : Byte) (s : State) (n : Nat) (beyond : 336 ≤ n) :
    State.LocksOne v held reason s n (.refused .badArgument) s :=
  entry_beyond beyond ⟨rfl, rfl⟩

theorem State.unlocksOne_beyond (s : State) (n : Nat) (beyond : 336 ≤ n) : s.UnlocksOne n (.refused .badArgument) s :=
  entry_beyond beyond ⟨rfl, rfl⟩

/-- Settles O37: the channels in order by `State.lockChannel_locksOne` and `State.unlockChannel_unlocksOne`. -/
theorem lockoutHoldsAndUnlockRejoins : Obligations.LockoutHoldsAndUnlockRejoins := by
  intro s tag ns body some_ few small
  refine ⟨?_, ?_⟩
  · rintro v held reason length rfl h
    obtain ⟨os, taken, first, second, refused, index, code, result⟩ := State.eachChannel_taken
      (State.lockChannel_locksOne (lockoutOf_eq length held reason (ns.flatMap (bytes 2))))
      (State.locksOne_beyond v held reason) s ns
    obtain ⟨-, -, -, list⟩ := lockoutBody_fields length held reason (ns.flatMap (bytes 2))
    have size : (v ++ [held, reason] ++ ns.flatMap (bytes 2)).length = 7 + 2 * ns.length := by
      rw [List.length_append, List.length_append, length, flatMap_bytes_length]
      rfl
    refine ⟨_, os, taken, .of_reply rfl h ?_⟩
    unfold lockoutRequest
    rw [if_neg (by omega), list, channelList_flatMap ns small]
    simp only [first, second, refused, index, code, result, bytes_one]
    rfl
  · rintro rfl h
    obtain ⟨os, taken, first, second, refused, index, -, result⟩ :=
      State.eachChannel_taken State.unlockChannel_unlocksOne State.unlocksOne_beyond s ns
    refine ⟨_, os, taken, .of_reply rfl h ?_⟩
    unfold unlockRequest
    rw [channelListOk_flatMap ns some_ few, if_neg (by decide), channelList_flatMap ns small]
    simp only [first, second, refused, index, result, bytes_one]
    rfl

/-! ## OUTPUT_SELECTION (R59–R61) -/

/-- A selection that the scheduler has asked for answers with the value of the record (R60, R82). -/
theorem State.askSelected_of_select {s : State} {c : Channel} {g : Gather} {shown : Value} (h : s.gathering c = some g)
    (ask : g.ask = .select shown) : s.askSelected c =
      (s.dropCompleteRejoin c).withGather c { g with ask := .answer (s.cha.records[c].output shown s.now) } := by
  simp only [State.askSelected, h, ask]

section output

variable {o : Ownership} {shown : Value} {now : Time}

theorem Ownership.output_of_lockout {l : Lockout} (locked : o.lockout = some l) : o.output shown now = l.value := by
  simp only [Ownership.output, locked]

theorem Ownership.output_of_claim {k : Claim} (unlocked : o.lockout = none) (claimed : o.claim = some k) :
    o.output shown now = k.output now := by
  simp only [Ownership.output, unlocked, claimed]

theorem Ownership.output_of_rejoin {r : Rejoin} (unlocked : o.lockout = none) (unclaimed : o.claim = none)
    (rejoining : o.rejoin = some r) : o.output shown now = r.output shown now := by
  simp only [Ownership.output, unlocked, unclaimed, rejoining]

theorem Ownership.output_of_show (unlocked : o.lockout = none) (unclaimed : o.claim = none) (settled : o.rejoin = none) :
    o.output shown now = shown := by
  simp only [Ownership.output, unlocked, unclaimed, settled]

end output

/-- Settles O38: the value by the owner, and the removal of a complete rejoin. -/
theorem selectionFollowsTheEffectiveOwner : Obligations.SelectionFollowsTheEffectiveOwner := by
  intro s c g shown h ask
  have kept := fun k => congrArg State.cha (State.dropCompleteRejoin_of_kept (s := s) (c := c) k)
  refine ⟨s.askSelected c, s.cha.records[c].output shown s.now, rfl, ?_, ?_, ?_, ?_, ?_, ?_⟩
  all_goals rw [State.askSelected_of_select h ask]
  · exact State.gathering_withGather h _
  all_goals rw [State.withGather, State.withLine_cha]
  · intro d other
    rcases s.dropCompleteRejoin_cases c with same | ⟨-, removed⟩
    · rw [same]
    · rw [removed, State.withRecord_record, if_neg other.symm]
  · rcases s.dropCompleteRejoin_cases c with same | ⟨-, removed⟩
    · rw [same]
    · rw [removed]
      rfl
  · intro l locked
    refine ⟨Ownership.output_of_lockout locked, kept fun unlocked => ?_⟩
    cases locked.symm.trans unlocked
  · intro k unlocked claimed
    refine ⟨kept fun _ unclaimed => ?_, Ownership.output_of_claim unlocked claimed⟩
    cases claimed.symm.trans unclaimed
  · intro unlocked unclaimed
    refine ⟨fun settled => ⟨?_, kept fun _ _ r rejoining => ?_⟩,
      fun r rejoining => ⟨fun ended => ⟨?_, ?_⟩, fun going => ⟨?_, kept ?_⟩⟩⟩
    · exact Ownership.output_of_show unlocked unclaimed settled
    · cases settled.symm.trans rejoining
    · exact (Ownership.output_of_rejoin unlocked unclaimed rejoining).trans (if_pos ended)
    · rw [State.dropCompleteRejoin_of_complete unlocked unclaimed rejoining (decide_eq_true ended), State.withRecord_record,
        if_pos rfl]
    · exact (Ownership.output_of_rejoin unlocked unclaimed rejoining).trans (if_neg (Nat.not_le.mpr going))
    · intro _ _ r' same
      obtain rfl : r = r' := Option.some.inj (rejoining ▸ same)
      exact decide_eq_false (Nat.not_le.mpr going)

end Sys2Proof.Machine
end

section
namespace Sys2Proof.Machine

/-! ## The check of a drive frame (R121) -/

theorem DriveFrame.check_eq {i : Pump} {check : DriveFrame → BitVec 16} (h : ChecksDriveFrames i check) (f : DriveFrame) :
    f.check i = check f := by
  obtain ⟨speed, power, clear, probe⟩ := h _ rfl
  rw [DriveFrame.check]
  cases f with
  | speed n => rw [speed, DriveFrame.covered, bytes_one]; rfl
  | power on => rw [power, DriveFrame.covered, bytes_one]; cases on <;> rfl
  | clear => rw [clear, DriveFrame.covered, bytes_one]; rfl
  | probe => rw [probe, DriveFrame.covered, bytes_one]; rfl

/-! ## The commands of a line (R81, R85) -/

section line

variable {s : State}

/-- A complete frame of a group is handed to the line of the group (R85). -/
theorem exec_frameHandover_group {l : Line} {g : Gather} (gathered : s.fsc.line l = .assembling g)
    (complete : g.answers.length = groupSize g.group) (line : lineOf g.group = l) :
    exec (.frameHandover l) s = .next (s.handGroup g) := by
  have holds : (g.complete && lineOf g.group = l) = true := by simp [Gather.complete, complete, line]
  show execFrameHandover l s = _
  rw [execFrameHandover, gathered]
  exact congrArg _ (if_pos holds)

/-- The frame of a NULL entry is handed to the drive line (R87, R88). -/
theorem exec_frameHandover_null {d : Pump} {f : DriveFrame} (built : s.fsc.drive = .assemblingNull d f) :
    exec (.frameHandover .drive) s = .next (s.handNull d f) := by
  show execFrameHandover .drive s = _
  rw [execFrameHandover, show s.fsc.line .drive = _ from built]
  rfl

theorem exec_frameEnd {l : Line} {e : LineEntry} {f : LineFrame} (other : l ≠ .drive) (sends : s.fsc.line l = .sending e f) :
    exec (.frameEnd l) s = .next (s.withLine l .free) := by
  show execFrameEnd l s = _
  rw [execFrameEnd, if_neg other, sends]

end line

/-! ## Hand-over of a pump's frame (R83) and of a NULL entry's (R88, R124) -/

theorem State.handPump_eq (s : State) {i : Pump} {g : Group} (same : g.val = i.val) (n : Nat) (ask : Ask) :
    s.handPump ⟨g, [.speed n], ask⟩ = s.withLine .drive (.sending (.group g)
      (.drive i (if s.dlc[i].present then .speed n else .probe)
        (DriveFrame.check i (if s.dlc[i].present then .speed n else .probe)))) := by
  have found : pumpOf g.val = some i := by rw [same, pumpOf, dif_pos i.isLt]
  simp only [State.handPump, found]
  rfl

/-- Any frame but a POWER frame is sent as it was built, and changes no drive record (R88). -/
theorem State.handNull_sent (s : State) (d : Pump) {f : DriveFrame} (h : ∀ on, f ≠ .power on) :
    s.handNull d f = s.sendNull d f := by
  cases f with
  | power on => exact absurd rfl (h on)
  | speed _ | clear | probe => rfl

/-! ## The banks and blocks (R78, R82) -/

/-- A valve bank: its line, its size and the number of its first jet. -/
theorem bank_geometry {g : Group} (low : 16 ≤ g.val) (high : g.val < 20) :
    lineOf g = .valve ∧ groupSize g = 32 ∧ firstChannel g - 16 = 32 * (g.val - 16) := by
  have not_pump : ¬ g.val < 16 := by omega
  simp only [lineOf, groupSize, firstChannel, not_pump, high, reduceIte, true_and]
  omega

/-- A fixture block: its size and the number of its first fixture. -/
theorem block_geometry {g : Group} (low : 20 ≤ g.val) :
    groupSize g = 24 ∧ firstChannel g - 144 = 24 * (g.val - 20) := by
  have not_pump : ¬ g.val < 16 := by omega
  have not_bank : ¬ g.val < 20 := by omega
  simp only [groupSize, firstChannel, not_pump, not_bank, reduceIte, true_and]
  omega

/-! ## The output tables after a hand-over (R143, R151) -/

/-- What stands in the table at a place written is what the list has for it. -/
theorem overwrite_written {α : Type} {n : Nat} (t : Vector α n) {first : Nat} {l : List α} {j : Fin n} (low : first ≤ j.val)
    (high : j.val < first + l.length) : l[j.val - first]? = some (overwrite t first l)[j] := by
  rw [overwrite_entry, if_pos ⟨low, high⟩, List.getElem?_eq_getElem (by omega), Option.getD_some]

theorem overwrite_getD {α : Type} {n : Nat} (t : Vector α n) (first : Nat) (l : List α) (j : Fin n) (d : α) :
    (overwrite t first l)[j] =
      if first ≤ j.val ∧ j.val < first + l.length then l.getD (j.val - first) d else t[j] := by
  rw [overwrite_entry]
  refine if_ctx_congr Iff.rfl (fun written => ?_) fun _ => rfl
  rw [List.getD_eq_getElem?_getD, List.getElem?_eq_getElem (by omega), Option.getD_some, Option.getD_some]

/-- The limit of an emergency stop at a jet of the bank (R143). -/
theorem State.limitedOutputs_getD (s : State) (first : Nat) (outs : List Nat) {j : Jet} (low : first ≤ j.val)
    (high : j.val < first + outs.length) : (s.limitedOutputs first outs).getD (j.val - first) 0 =
      if s.estop then min (outs.getD (j.val - first) 0) s.out.valves[j] else outs.getD (j.val - first) 0 := by
  have entry : s.out.valves[first + (j.val - first)]? = some s.out.valves[j] := by
    rw [Nat.add_sub_cancel' low]
    exact Vector.getElem?_eq_getElem j.isLt
  rw [List.getD_eq_getElem?_getD, List.getD_eq_getElem?_getD, State.limitedOutputs_entry, entry,
    List.getElem?_eq_getElem (by omega)]
  rfl

theorem openings_of_answers (outs : List Nat) : (outs.map Answer.opening).map Answer.toOpening = outs := by
  rw [List.map_map]
  exact List.map_id outs

theorem lamps_of_answers (outs : List Lamp) : (outs.map Answer.lamp).map Answer.toLamp = outs := by
  rw [List.map_map]
  exact List.map_id outs

/-- Hand-over of a bank's answers (R85, R143, R144). -/
theorem State.handGroup_bank (s : State) {g : Group} (low : 16 ≤ g.val) (high : g.val < 20) (outs : List Nat) (ask : Ask) :
    s.handGroup ⟨g, outs.map .opening, ask⟩ =
      (s.withOut { s.out with
        valves := overwrite s.out.valves (32 * (g.val - 16)) (s.limitedOutputs (32 * (g.val - 16)) outs) }).withLine .valve
        (.sending (.group g) (.valve g (s.limitedOutputs (32 * (g.val - 16)) outs)
          (valveCheck g (s.limitedOutputs (32 * (g.val - 16)) outs)))) := by
  obtain ⟨line, -, first⟩ := bank_geometry low high
  rw [State.handGroup, if_neg (Nat.not_lt.mpr low), if_pos high]
  simp only [State.handValve, line, first, openings_of_answers]

/-- Hand-over of a block's answers (R85, R151, R152). -/
theorem State.handGroup_block (s : State) {g : Group} (low : 20 ≤ g.val) (outs : List Lamp) (ask : Ask) :
    s.handGroup ⟨g, outs.map .lamp, ask⟩ =
      (s.withOut { s.out with lamps := overwrite s.out.lamps (24 * (g.val - 20)) outs }).withLine (lineOf g)
        (.sending (.group g) (.fixture g outs (fixtureCheck g outs))) := by
  obtain ⟨-, first⟩ := block_geometry low
  have not_pump : ¬ g.val < 16 := by omega
  rw [State.handGroup, if_neg not_pump, if_neg (Nat.not_lt.mpr low)]
  simp only [State.handFixture, first, lamps_of_answers]

/-- Settles O41: each hand-over by its own equation, then the entries of the output tables. -/
theorem handoverWritesTheOutputTables : Obligations.HandoverWritesTheOutputTables := by
  intro s
  refine ⟨?_, ?_, ?_, ?_, ?_⟩
  · intro g outs ask low high length gathered
    obtain ⟨line, size, -⟩ := bank_geometry low high
    refine ⟨_, s.limitedOutputs (32 * (g.val - 16)) outs,
      exec_frameHandover_group (l := .valve) gathered (by simp [length, size]) line, by simp [length], ?_⟩
    rw [State.handGroup_bank s low high]
    refine ⟨rfl, rfl, fun j => ⟨?_, fun from_ to_ => overwrite_written _ from_ (by simpa [length] using to_)⟩⟩
    refine (overwrite_getD _ _ _ j 0).trans ?_
    rw [State.limitedOutputs_length, length]
    exact if_ctx_congr Iff.rfl (fun written => s.limitedOutputs_getD _ _ written.1 (length.symm ▸ written.2)) fun _ => rfl
  · rintro l g outs ask low rfl length gathered
    obtain ⟨size, -⟩ := block_geometry low
    refine ⟨_, exec_frameHandover_group gathered (by simp [length, size]) rfl, ?_⟩
    rw [State.handGroup_block s low]
    refine ⟨State.withLine_line_self .., rfl, fun f => ?_⟩
    rw [← length]
    exact overwrite_getD s.out.lamps _ outs f _
  · rintro i check checks g n ask same gathered f rfl
    have pump : g.val < 16 := same ▸ i.isLt
    rw [exec_frameHandover_group (l := .drive) gathered (if_pos pump).symm (if_pos pump), State.handGroup, if_pos pump,
      s.handPump_eq same, DriveFrame.check_eq checks]
  · rintro i check f checks built _ rfl
    rw [exec_frameHandover_null built, ← DriveFrame.check_eq checks]
    refine ⟨fun other => congrArg _ (s.handNull_sent i other), ?_⟩
    rintro on rfl
    exact ⟨fun sound => congrArg _ (if_neg sound), fun failed => congrArg _ (if_pos failed)⟩
  · intro l e f other sends
    exact exec_frameEnd other sends

end Sys2Proof.Machine
end

section
namespace Sys2Proof.Machine

/-! ## The local time of a slot expiry (R2, R80) -/

section tick

variable (s : State)

theorem State.tick_mpPlant : s.tick.mpPlant = s.mpPlant := s.tick_within.same .mpPlant (by decide)

theorem State.tick_fsc : s.tick.fsc = s.fsc := s.tick_within.same .fsc (by decide)

theorem State.tick_pgv : s.tick.pgv = s.pgv := s.tick_within.same .pgv (by decide)

theorem State.tick_tables : s.tick.tables = s.tables := s.tick_within.same .tables (by decide)

theorem State.tick_early (early : s.clock.expiries < 2) :
    s.tick.clock = { s.clock with expiries := s.clock.expiries + 1 } ∧ s.tick.plm = s.plm := by
  rw [State.tick, if_neg (Nat.not_le.mpr early)]
  exact ⟨rfl, rfl⟩

/-- The expiry that begins a millisecond: the ages and the length of an emergency stop rise (R155, R168). -/
theorem State.tick_late (late : 2 ≤ s.clock.expiries) :
    s.tick.clock = ⟨s.clock.now + 1, 1, s.clock.released⟩ ∧ s.tick.plm = { s.plm with
      windAge := min (s.plm.windAge + 1) 4294967295, levelAge := min (s.plm.levelAge + 1) 4294967295
      stop := s.plm.stop.map fun e => { e with length := min (e.length + 1) 4294967295 } } := by
  rw [State.tick, if_pos late]
  exact ⟨rfl, rfl⟩

/-- The ages of the drive records rise with a new millisecond (R119). -/
theorem State.tick_drive (i : Pump) : s.tick.dlc[i] =
    if s.clock.expiries < 2 then s.dlc[i] else { s.dlc[i] with age := min (s.dlc[i].age + 1) 4294967295 } := by
  unfold State.tick
  by_cases first : s.clock.expiries < 2
  · rw [if_neg (Nat.not_le.mpr first), if_pos first]
    rfl
  · rw [if_pos (Nat.not_lt.mp first), if_neg first]
    exact getElem_tabulate _ i.val i.isLt

theorem State.tick_present (i : Pump) : s.tick.dlc[i].present = s.dlc[i].present := by
  rw [State.tick_drive]
  split <;> rfl

theorem State.tick_pending (i : Pump) : s.tick.dlc[i].pending = s.dlc[i].pending := by
  rw [State.tick_drive]
  split <;> rfl

end tick

/-! ## Which drive a NULL entry chooses (R87) -/

theorem State.commandReady_iff {s : State} {d : Pump} : s.commandReady d = true ↔
    ∃ p, s.dlc[d].pending = some p ∧ (p.command = .powerOff → s.pgv.pumps[d].commanded = 0) := by
  unfold State.commandReady
  cases s.dlc[d].pending with
  | none => simp
  | some p =>
    obtain ⟨command, -, -, -⟩ := p
    cases command <;> simp

theorem State.tick_commandReady (s : State) (d : Pump) : s.tick.commandReady d = s.commandReady d := by
  rw [Bool.eq_iff_iff, State.commandReady_iff, State.commandReady_iff, State.tick_pending, State.tick_pgv]

theorem State.tick_chosenDrive (s : State) : s.tick.chosenDrive = s.chosenDrive := by
  have ready : s.tick.commandReady = s.commandReady := funext s.tick_commandReady
  simp only [State.chosenDrive, ready, State.tick_fsc, State.tick_present]

section search

variable {pointer : Pump} {drive : Nat → Pump} {p : Pump → Bool}

theorem searchOrder_eq (order : ∀ k, (drive k).val = (pointer.val + 1 + k) % 16) :
    searchOrder pointer = (List.range 16).map drive :=
  List.map_congr_left fun k _ => Fin.ext (order k).symm

/-- The search finds a drive when none before it in the order will do. -/
theorem searchOrder_find (order : ∀ k, (drive k).val = (pointer.val + 1 + k) % 16) {k : Nat} (bound : k < 16)
    (holds : p (drive k) = true) (first : ∀ j, j < k → p (drive j) = false) :
    (searchOrder pointer).find? p = some (drive k) := by
  have found : (List.range 16).find? (p ∘ drive) = some k :=
    List.find?_range_eq_some.mpr ⟨holds, List.mem_range.mpr bound, fun j earlier => by simp [first j earlier]⟩
  rw [searchOrder_eq order, List.find?_map, found, Option.map_some]

theorem searchOrder_find_none (pointer : Pump) (fails : ∀ d, p d = false) : (searchOrder pointer).find? p = none :=
  List.find?_eq_none.mpr fun d _ => by simp [fails d]

end search

section chosenDrive

variable {s : State} {drive : Nat → Pump}

/-- The first pass: the first drive with a command ready (R87). -/
theorem State.chosenDrive_ready (order : ∀ k, (drive k).val = (s.fsc.management.val + 1 + k) % 16) {k : Nat} (bound : k < 16)
    (holds : s.commandReady (drive k) = true) (first : ∀ j, j < k → s.commandReady (drive j) = false) :
    s.chosenDrive = some (drive k) := by
  rw [State.chosenDrive, searchOrder_find order bound holds first]

/-- The second pass: where no command is ready, an ABSENT drive is searched for (R87). -/
theorem State.chosenDrive_unready (unready : ∀ d, s.commandReady d = false) :
    s.chosenDrive = (searchOrder s.fsc.management).find? fun d => !s.dlc[d].present := by
  rw [State.chosenDrive, searchOrder_find_none _ unready]

theorem State.chosenDrive_absent (order : ∀ k, (drive k).val = (s.fsc.management.val + 1 + k) % 16)
    (unready : ∀ d, s.commandReady d = false) {k : Nat} (bound : k < 16) (absent : s.dlc[drive k].present = false)
    (first : ∀ j, j < k → s.dlc[drive j].present = true) : s.chosenDrive = some (drive k) := by
  rw [State.chosenDrive_unready unready]
  exact searchOrder_find order bound (by rw [absent, Bool.not_false]) fun j earlier => by rw [first j earlier, Bool.not_true]

theorem State.chosenDrive_none (unready : ∀ d, s.commandReady d = false) (present : ∀ d : Pump, s.dlc[d].present = true) :
    s.chosenDrive = none := by
  rw [State.chosenDrive_unready unready]
  exact searchOrder_find_none _ fun d => by rw [present d, Bool.not_true]

end chosenDrive

/-! ## The service of an entry (R82, R86, R87) -/

section serve

variable {s : State}

theorem State.serveGroup_free {g : Group} (free : s.fsc.line (lineOf g) = .free) :
    s.serveGroup g = s.withLine (lineOf g) (.assembling ⟨g, [], .evaluate⟩) := by
  rw [State.serveGroup, free]

theorem State.serveGroup_busy {g : Group} (busy : s.fsc.line (lineOf g) ≠ .free) : s.serveGroup g = s.overrun g := by
  unfold State.serveGroup
  split
  · exact absurd ‹_› busy
  all_goals rfl

theorem State.serveNull_busy (busy : s.fsc.drive ≠ .free) : s.serveNull = s := by
  unfold State.serveNull
  split
  · exact absurd ‹_› busy
  all_goals rfl

theorem State.serveNull_chosen {d : Pump} (free : s.fsc.drive = .free) (chosen : s.chosenDrive = some d) :
    s.serveNull =
      (s.withFsc { s.fsc with management := d, drive := .assemblingNull d (s.managementFrame d) }).withDrive d
        s.dlc[d].framing := by
  rw [State.serveNull, free, chosen]

theorem State.serveNull_unchosen (free : s.fsc.drive = .free) (unchosen : s.chosenDrive = none) : s.serveNull = s := by
  rw [State.serveNull, free, unchosen]

/-- The service of a group's entry leaves the management pointer, the other lines and the drive records. -/
theorem State.serveGroup_keeps (g : Group) : (s.serveGroup g).fsc.management = s.fsc.management ∧
    (∀ l, l ≠ lineOf g → (s.serveGroup g).fsc.line l = s.fsc.line l) ∧
    ∀ i : Pump, (s.serveGroup g).dlc[i] = s.dlc[i] := by
  refine ⟨?_, fun l other => ?_, fun i => congrArg (·[i]) ((s.serveGroup_within g).same .dlc (by decide))⟩
  all_goals by_cases free : s.fsc.line (lineOf g) = .free
  · rw [State.serveGroup_free free, State.withLine_fsc_management]
  · rw [State.serveGroup_busy free]
    rfl
  · rw [State.serveGroup_free free, State.withLine_line, if_neg other]
  · rw [State.serveGroup_busy free]
    cases l <;> rfl

/-- An overrun of a group's entry (R86). -/
theorem State.overrun_eq (g : Group) : (s.overrun g).fsc.line (lineOf g) = s.fsc.line (lineOf g) ∧
    (s.overrun g).fsc.overruns = s.fsc.overruns.set g (min (s.fsc.overruns[g] + 1) 65535) ∧
    (s.overrun g).mpPlant =
      s.mpPlant.place ⟨.slotOverrun, g.val, min (s.fsc.overruns[g] + 1) 65535, s.clock.now⟩ := by
  refine ⟨?_, rfl, rfl⟩
  cases lineOf g <;> rfl

/-- The service of a NULL entry leaves the overrun counts and the other lines. -/
theorem State.serveNull_keeps : s.serveNull.fsc.overruns = s.fsc.overruns ∧
    ∀ l, l ≠ .drive → s.serveNull.fsc.line l = s.fsc.line l := by
  unfold State.serveNull
  split
  · split
    · refine ⟨rfl, fun l other => ?_⟩
      cases l with
      | drive => exact absurd rfl other
      | valve | fixtureA | fixtureB => rfl
    · exact ⟨rfl, fun _ _ => rfl⟩
  all_goals exact ⟨rfl, fun _ _ => rfl⟩

theorem State.managementFrame_of_pending {d : Pump} {p : PendingCommand} (pending : s.dlc[d].pending = some p) :
    s.managementFrame d = p.command.frame := by
  rw [State.managementFrame, pending]

theorem State.managementFrame_of_none {d : Pump} (pending : s.dlc[d].pending = none) : s.managementFrame d = .probe := by
  rw [State.managementFrame, pending]

theorem DriveRecord.framing_of_pending {d : DriveRecord} {p : PendingCommand} (pending : d.pending = some p) :
    d.framing = { d with pending := some ⟨p.command, p.requestTime, p.prior, true⟩ } := by
  rw [DriveRecord.framing, pending]
  rfl

theorem State.serveEntry_pointer : s.serveEntry.fsc.pointer = s.fsc.pointer := by
  unfold State.serveEntry
  split
  · unfold State.serveGroup
    split
    · exact State.withLine_fsc_pointer ..
    all_goals rfl
  · unfold State.serveNull
    split
    · split <;> rfl
    all_goals rfl

end serve

/-! ## The slot expiry (R80) -/

section slotExpiry

variable {s : State}

theorem exec_slotExpiry (released : s.clock.released = true) : exec .slotExpiry s = .next s.slotExpiry :=
  congrArg _ (if_pos released)

theorem State.slotExpiry_pointer : s.slotExpiry.fsc.pointer.val = (s.fsc.pointer.val + 1) % 40 := by
  show (s.tick.serveEntry.fsc.pointer.val + 1) % 40 = _
  rw [State.serveEntry_pointer, State.tick_fsc]

theorem State.slotExpiry_line (l : Line) : s.slotExpiry.fsc.line l = s.tick.serveEntry.fsc.line l := by
  cases l <;> rfl

theorem State.slotExpiry_clock : s.slotExpiry.clock = s.tick.clock := (State.serveEntry_within _).same .clock (by decide)

theorem State.slotExpiry_plm : s.slotExpiry.plm = s.tick.plm := (State.serveEntry_within _).same .plm (by decide)

theorem State.slotExpiry_management : s.slotExpiry.fsc.management = s.tick.serveEntry.fsc.management := rfl

theorem State.slotExpiry_overruns : s.slotExpiry.fsc.overruns = s.tick.serveEntry.fsc.overruns := rfl

theorem State.slotExpiry_mpPlant : s.slotExpiry.mpPlant = s.tick.serveEntry.mpPlant := rfl

theorem State.slotExpiry_drive (i : Pump) : s.slotExpiry.dlc[i] = s.tick.serveEntry.dlc[i] := rfl

theorem State.tick_entry : s.tick.tables.slots[s.tick.fsc.pointer] = s.tables.slots[s.fsc.pointer] := by
  simp only [State.tick_tables, State.tick_fsc]

theorem State.tick_serveEntry_group {g : Group} (entry : s.tables.slots[s.fsc.pointer] = some g) :
    s.tick.serveEntry = s.tick.serveGroup g := by
  rw [State.serveEntry, State.tick_entry, entry]

theorem State.tick_serveEntry_null (entry : s.tables.slots[s.fsc.pointer] = none) : s.tick.serveEntry = s.tick.serveNull := by
  rw [State.serveEntry, State.tick_entry, entry]

/-- A NULL entry leaves the overrun counts, the notices and the other lines (R87). -/
theorem State.slotExpiry_null_keeps (entry : s.tables.slots[s.fsc.pointer] = none) :
    s.slotExpiry.fsc.overruns = s.fsc.overruns ∧ s.slotExpiry.mpPlant = s.mpPlant ∧
      ∀ l, l ≠ .drive → s.slotExpiry.fsc.line l = s.fsc.line l := by
  obtain ⟨overruns, others⟩ := State.serveNull_keeps (s := s.tick)
  rw [State.tick_fsc] at overruns others
  rw [State.slotExpiry_overruns, State.slotExpiry_mpPlant, State.tick_serveEntry_null entry]
  refine ⟨overruns, (s.tick.serveNull_within.same .mpPlant (by decide)).trans s.tick_mpPlant, fun l other => ?_⟩
  rw [State.slotExpiry_line, State.tick_serveEntry_null entry, others l other]

/-- A NULL entry with no exchange to begin leaves the drive line and the management pointer (R87). -/
theorem State.slotExpiry_null_idle (entry : s.tables.slots[s.fsc.pointer] = none) (idle : s.tick.serveNull = s.tick) :
    s.slotExpiry.fsc.drive = s.fsc.drive ∧ s.slotExpiry.fsc.management = s.fsc.management ∧
      ∀ i : Pump, s.slotExpiry.dlc[i] = s.tick.dlc[i] := by
  have unserved : s.tick.serveEntry = s.tick := (State.tick_serveEntry_null entry).trans idle
  refine ⟨?_, ?_, fun i => ?_⟩
  · exact (s.slotExpiry_line .drive).trans (by rw [unserved, State.tick_fsc]; rfl)
  · rw [State.slotExpiry_management, unserved, State.tick_fsc]
  · rw [State.slotExpiry_drive]
    simp only [unserved]

/-- A NULL entry on a free drive line begins the exchange with the drive chosen (R87, R124). -/
theorem State.slotExpiry_null_chosen (entry : s.tables.slots[s.fsc.pointer] = none) (free : s.fsc.drive = .free) {d : Pump}
    (chosen : s.chosenDrive = some d) :
    s.slotExpiry.fsc.management = d ∧ s.slotExpiry.fsc.drive = .assemblingNull d (s.tick.managementFrame d) ∧
      ∀ i : Pump, s.slotExpiry.dlc[i] = if d = i then s.tick.dlc[d].framing else s.tick.dlc[i] := by
  have served := (State.tick_serveEntry_null entry).trans
    (State.serveNull_chosen (s.tick_fsc.symm ▸ free) (s.tick_chosenDrive.trans chosen))
  refine ⟨?_, ?_, fun i => ?_⟩
  · rw [State.slotExpiry_management, served]
    rfl
  · exact (s.slotExpiry_line .drive).trans (by rw [served]; rfl)
  · rw [State.slotExpiry_drive]
    simp only [served]
    rw [State.withDrive_drive]
    rfl

/-- The frame built delivers the pending command of the drive chosen, which is marked (R124). -/
theorem State.slotExpiry_null_command (entry : s.tables.slots[s.fsc.pointer] = none) (free : s.fsc.drive = .free) {d : Pump}
    (chosen : s.chosenDrive = some d) {p : PendingCommand} (pending : s.dlc[d].pending = some p) :
    s.slotExpiry.fsc.drive = .assemblingNull d p.command.frame ∧ (∀ i : Pump, i ≠ d → s.slotExpiry.dlc[i] = s.tick.dlc[i]) ∧
      s.slotExpiry.dlc[d] = { s.tick.dlc[d] with pending := some ⟨p.command, p.requestTime, p.prior, true⟩ } := by
  obtain ⟨-, built, drives⟩ := State.slotExpiry_null_chosen entry free chosen
  rw [← State.tick_pending] at pending
  rw [built, State.managementFrame_of_pending pending]
  exact ⟨rfl, fun i other => (drives i).trans (if_neg other.symm),
    (drives d).trans ((if_pos rfl).trans (DriveRecord.framing_of_pending pending))⟩

/-- The frame built for a drive without a pending command is PROBE, and no drive record is marked (R124). -/
theorem State.slotExpiry_null_probe (entry : s.tables.slots[s.fsc.pointer] = none) (free : s.fsc.drive = .free) {d : Pump}
    (chosen : s.chosenDrive = some d) (pending : s.dlc[d].pending = none) :
    s.slotExpiry.fsc.drive = .assemblingNull d .probe ∧ ∀ i : Pump, s.slotExpiry.dlc[i] = s.tick.dlc[i] := by
  obtain ⟨-, built, drives⟩ := State.slotExpiry_null_chosen entry free chosen
  rw [← State.tick_pending] at pending
  rw [DriveRecord.framing_none pending] at drives
  rw [built, State.managementFrame_of_none pending]
  refine ⟨rfl, fun i => (drives i).trans ?_⟩
  split
  · rename_i same
    rw [same]
  · rfl

end slotExpiry

/-- Settles O40: local time by `State.tick`, then the service of the entry at the pointer, a group's or a NULL entry's. -/
theorem slotExpiryServesTheEntryAtThePointer : Obligations.SlotExpiryServesTheEntryAtThePointer := by
  intro s released
  refine ⟨s.slotExpiry, exec_slotExpiry released, State.slotExpiry_pointer, ?_, ?_, ?_⟩
  · intro early
    rw [State.slotExpiry_clock, State.slotExpiry_plm]
    exact s.tick_early early
  · intro late
    rw [State.slotExpiry_clock, State.slotExpiry_plm, ← released]
    exact s.tick_late late
  intro aged age
  obtain rfl : aged = fun i => s.tick.dlc[i] := funext fun i => (age i).trans (s.tick_drive i).symm
  refine ⟨fun g entry => ?_, fun entry => ?_⟩
  · obtain ⟨management, others, drives⟩ := State.serveGroup_keeps (s := s.tick) g
    obtain ⟨line, overruns, notice⟩ := State.overrun_eq (s := s.tick) g
    simp only [State.slotExpiry_management, State.slotExpiry_overruns, State.slotExpiry_mpPlant, State.slotExpiry_line,
      State.slotExpiry_drive, State.slotExpiry_clock, State.tick_serveEntry_group entry]
    rw [State.tick_fsc] at management others line overruns
    refine ⟨management, others, drives, fun free => ?_, fun busy => ?_⟩
    · rw [State.serveGroup_free (by rw [State.tick_fsc, free]), State.withLine_fsc_overruns, State.tick_fsc]
      exact ⟨State.withLine_line_self .., rfl⟩
    · rw [State.serveGroup_busy (by rw [State.tick_fsc]; exact busy)]
      simp only [State.tick_mpPlant, State.tick_fsc] at notice
      exact ⟨line, overruns, notice⟩
  · obtain ⟨overruns, notices, others⟩ := State.slotExpiry_null_keeps entry
    refine ⟨overruns, notices, others, fun busy => ?_, fun free Ready drive readiness order => ?_⟩
    · exact State.slotExpiry_null_idle entry (State.serveNull_busy (s.tick_fsc.symm ▸ busy))
    have ready : ∀ d, s.commandReady d = true ↔ Ready d := fun d => State.commandReady_iff.trans (readiness d).symm
    refine ⟨?_, fun unready => ?_⟩
    · rintro k p _ bound holds first pending rfl
      have chosen := State.chosenDrive_ready order bound ((ready _).mpr holds)
        fun j earlier => Bool.eq_false_iff.mpr fun h => first j earlier ((ready _).mp h)
      obtain ⟨management, -, -⟩ := State.slotExpiry_null_chosen entry free chosen
      obtain ⟨built, others, marked⟩ := State.slotExpiry_null_command entry free chosen pending
      refine ⟨management, built.trans ?_, others, marked⟩
      cases p.command <;> rfl
    have none_ready : ∀ d, s.commandReady d = false := fun d => Bool.eq_false_iff.mpr fun h => unready d ((ready d).mp h)
    refine ⟨fun k bound absent first => ?_, fun present => ?_⟩
    · have chosen := State.chosenDrive_absent order none_ready bound absent first
      obtain ⟨management, -, -⟩ := State.slotExpiry_null_chosen entry free chosen
      exact ⟨management, State.slotExpiry_null_probe entry free chosen⟩
    · obtain ⟨line, kept⟩ := State.slotExpiry_null_idle entry (State.serveNull_unchosen (s.tick_fsc.symm ▸ free)
        (s.tick_chosenDrive.trans (State.chosenDrive_none none_ready present)))
      exact ⟨line.trans free, kept⟩

end Sys2Proof.Machine
end

section
namespace Sys2Proof.Machine

/-! ## The power function (R96) -/

theorem powerAt_mono (prated : Nat) {a b : Nat} (h : a ≤ b) : powerAt prated a ≤ powerAt prated b :=
  Nat.div_le_div_right (Nat.mul_le_mul_left _ (Nat.pow_le_pow_left h 3))

/-! ## The wind factor and the ceiling (R101) -/

section wind

variable {k : WindCurve} {v w : Nat}

theorem WindCurve.factor_calm (h : w ≤ k.ws) : k.factor w = 1000 := if_pos h

theorem WindCurve.factor_full (order : k.ws < k.wf) (h : k.wf ≤ w) : k.factor w = k.floor := by
  rw [WindCurve.factor, if_neg (by omega), if_pos h]

theorem WindCurve.factor_between (low : k.ws < w) (high : w < k.wf) :
    k.factor w = k.floor + (1000 - k.floor) * (k.wf - w) / (k.wf - k.ws) := by
  rw [WindCurve.factor, if_neg (Nat.not_le.mpr low), if_neg (Nat.not_le.mpr high)]

/-- What the straight line adds to the floor is at most what is left above it. -/
theorem WindCurve.slope_le (low : k.ws ≤ w) : (1000 - k.floor) * (k.wf - w) / (k.wf - k.ws) ≤ 1000 - k.floor :=
  Nat.div_le_of_le_mul (Nat.mul_comm (k.wf - k.ws) _ ▸ Nat.mul_le_mul_left _ (by omega))

theorem WindCurve.factor_bounds (k : WindCurve) (w : Nat) (floor : k.floor ≤ 1000) : k.floor ≤ k.factor w ∧ k.factor w ≤ 1000 := by
  rcases Nat.lt_or_ge k.ws w with low | calm
  · rcases Nat.lt_or_ge w k.wf with high | full
    · rw [WindCurve.factor_between low high]
      exact ⟨Nat.le_add_right .., (Nat.add_le_add_left (WindCurve.slope_le low.le) _).trans_eq (Nat.add_sub_cancel' floor)⟩
    · rw [WindCurve.factor, if_neg (by omega), if_pos full]
      exact ⟨le_refl _, floor⟩
  · rw [WindCurve.factor_calm calm]
    exact ⟨floor, le_refl _⟩

/-- A stronger wind has no larger factor. -/
theorem WindCurve.factor_anti (order : k.ws < k.wf) (floor : k.floor ≤ 1000) (h : w ≤ v) : k.factor v ≤ k.factor w := by
  rcases Nat.lt_or_ge k.ws w with low | calm
  · rcases Nat.lt_or_ge v k.wf with high | full
    · rw [WindCurve.factor_between (by omega) high, WindCurve.factor_between low (by omega)]
      exact Nat.add_le_add_left (Nat.div_le_div_right (Nat.mul_le_mul_left _ (by omega))) _
    · rw [WindCurve.factor_full order full]
      exact (k.factor_bounds w floor).1
  · rw [WindCurve.factor_calm calm]
    exact (k.factor_bounds v floor).2

variable (t : Tables) (i : Pump)

theorem Tables.ceiling_none (h : t.pumps[i].windClass = .none) (wind : Option Nat) : t.ceiling i wind = t.pumps[i].ps := by
  rw [Tables.ceiling, h]
  rfl

variable {t i}

theorem Tables.ceiling_fresh (h : t.curve t.pumps[i].windClass = some k) (w : Nat) :
    t.ceiling i (some w) = t.pumps[i].ps * k.factor w / 1000 := by
  simp only [Tables.ceiling, h]

theorem Tables.ceiling_stale (h : t.curve t.pumps[i].windClass = some k) :
    t.ceiling i none = t.pumps[i].ps * k.floor / 1000 := by
  simp only [Tables.ceiling, h]

/-- The ceiling lies from the stale ceiling to PS. -/
theorem Tables.ceiling_bounds (h : t.curve t.pumps[i].windClass = some k) (floor : k.floor ≤ 1000) (wind : Option Nat) :
    t.pumps[i].ps * k.floor / 1000 ≤ t.ceiling i wind ∧ t.ceiling i wind ≤ t.pumps[i].ps := by
  have scaled {n : Nat} (low : k.floor ≤ n) (high : n ≤ 1000) :
      t.pumps[i].ps * k.floor / 1000 ≤ t.pumps[i].ps * n / 1000 ∧ t.pumps[i].ps * n / 1000 ≤ t.pumps[i].ps :=
    ⟨Nat.div_le_div_right (Nat.mul_le_mul_left _ low), Nat.div_le_of_le_mul (Nat.mul_comm 1000 _ ▸ Nat.mul_le_mul_left _ high)⟩
  cases wind with
  | none =>
    rw [Tables.ceiling_stale h]
    exact scaled (le_refl _) floor
  | some w =>
    rw [Tables.ceiling_fresh h]
    obtain ⟨low, high⟩ := k.factor_bounds w floor
    exact scaled low high

end wind

/-- Settles O42: the cube is monotone, and so is what is left of it by the division. -/
theorem thePowerFunctionFollowsTheCube : Obligations.ThePowerFunctionFollowsTheCube :=
  ⟨fun _ _ => rfl, fun prated => ⟨by simp [powerAt], by simp [powerAt], by simp [powerAt]⟩,
    fun prated _ _ h => powerAt_mono prated h, by decide, by decide⟩

/-- Settles O43: the factor piece by piece, and the ceiling of a class by its curve. -/
theorem theWindCeilingFollowsTheCurve : Obligations.TheWindCeilingFollowsTheCurve := by
  refine ⟨fun k w order floor => ?_, fun t i => ⟨t.ceiling_none i, fun k curve _ floor => ?_⟩⟩
  · obtain ⟨low, high⟩ := k.factor_bounds w floor
    exact ⟨WindCurve.factor_calm, WindCurve.factor_full order, WindCurve.factor_between, low, high,
      fun v => WindCurve.factor_anti order floor⟩
  · exact ⟨Tables.ceiling_fresh curve, Tables.ceiling_stale curve, Tables.ceiling_bounds curve floor⟩

end Sys2Proof.Machine
end

section
namespace Sys2Proof.Machine

/-! ## The share of a pump (R97) -/

/-- Two drive records load the ledger alike: the governor commands both or neither, and for one commanded speed they have one share. -/
structure DriveRecord.SameLoad (d e : DriveRecord) : Prop where
  governed : e.governed = d.governed
  share : ∀ prated c, shareFor prated e c = shareFor prated d c

/-- The load depends on the presence, the power state and, under local control, the telemetry. -/
theorem DriveRecord.SameLoad.of_fields {d e : DriveRecord} (present : e.present = d.present) (power : e.power = d.power)
    (telemetry : d.power = .underLocal → e.telemetry = d.telemetry) : d.SameLoad e := by
  have governed : e.governed = d.governed := by rw [DriveRecord.governed, DriveRecord.governed, present, power]
  refine ⟨governed, fun prated c => ?_⟩
  rw [shareFor, shareFor, governed, present, power]
  by_cases locally : d.power = .underLocal
  · rw [DriveRecord.actual, DriveRecord.actual, telemetry locally]
  · simp only [locally, decide_false, Bool.and_false]
    rfl

theorem DriveRecord.SameLoad.refl (d : DriveRecord) : d.SameLoad d := ⟨rfl, fun _ _ => rfl⟩

theorem shareFor_governed {d : DriveRecord} (h : d.governed = true) (prated c : Nat) : shareFor prated d c = powerAt prated c :=
  if_pos h

/-- The share of a drive that the governor does not command does not depend on C. -/
theorem shareFor_ungoverned {d : DriveRecord} (h : d.governed = false) (prated b c : Nat) :
    shareFor prated d b = shareFor prated d c := by
  rw [shareFor, shareFor, h]
  rfl

section shares

variable {s t u : State} {i j : Pump}

/-- The share law sees of the state the pump's C and share, its drive's load and its rating. -/
theorem State.ShareLaw.of_same (law : s.ShareLaw i) (share : t.pgv.pumps[i].share = s.pgv.pumps[i].share)
    (commanded : t.pgv.pumps[i].commanded = s.pgv.pumps[i].commanded) (tables : t.tables = s.tables)
    (load : s.dlc[i].SameLoad t.dlc[i]) : t.ShareLaw i := by
  rw [State.ShareLaw, share, commanded, tables, load.governed, load.share]
  exact law

/-- The budget test leaves the flag set exactly while T exceeds B, whatever it was (R112). -/
theorem State.budgetTest_excessLaw (s : State) : s.budgetTest.ExcessLaw := by
  obtain ⟨raised, cleared, kept⟩ := s.budgetTest_tested
  rw [State.ExcessLaw, State.budgetTest_total, State.budgetTest_budget]
  cases flag : s.pgv.excess <;> rcases Nat.lt_or_ge s.pgv.budget s.pgv.total with above | below
  · simp only [(raised flag above).1, above]
  · rw [(kept (by simp [flag, Nat.not_lt.mpr below])).1, flag]
    simp only [Nat.not_lt.mpr below, Bool.false_eq_true]
  · rw [(kept (by simp [flag, above])).1, flag]
    simp only [above]
  · simp only [(cleared flag below).1, Nat.not_lt.mpr below, Bool.false_eq_true]

end shares

/-! ## What an operation can do to the governor -/

/-- An operation takes `s` to `t`: it keeps the fifth and the seventh law with the ranges of the tables, leaves the excess flag right, and
raises the commanded speeds of the pumps in `raised` only. -/
structure State.GovernorStep (raised : Pump → Prop) (s t : State) : Prop where
  ledger : s.LedgerLaw → t.LedgerLaw
  excess : s.ExcessLaw → t.ExcessLaw
  tables : s.TablesLaw → t.TablesLaw
  allowed : s.TablesLaw → s.AllowedLaw → t.AllowedLaw
  commanded : ∀ i : Pump, t.pgv.pumps[i].commanded ≤ s.pgv.pumps[i].commanded ∨ raised i

/-- An operation that raises no commanded speed. -/
abbrev State.Lowers (s t : State) : Prop := s.GovernorStep (fun _ => False) t

section steps

variable {s t u : State} {R R' : Pump → Prop}

theorem State.GovernorStep.mono (h : s.GovernorStep R t) (k : ∀ i, R i → R' i) : s.GovernorStep R' t :=
  ⟨h.ledger, h.excess, h.tables, h.allowed, fun i => (h.commanded i).imp_right (k i)⟩

theorem State.GovernorStep.step (h : s.Lowers t) : s.GovernorStep R t := h.mono fun _ => False.elim

theorem State.GovernorStep.next (h : s.Lowers t) (k : t.GovernorStep R u) : s.GovernorStep R u where
  ledger := k.ledger ∘ h.ledger
  excess := k.excess ∘ h.excess
  tables := k.tables ∘ h.tables
  allowed ranges law := k.allowed (h.tables ranges) (h.allowed ranges law)
  commanded i := (k.commanded i).imp_left fun lower => lower.trans ((h.commanded i).resolve_right id)

/-- An operation that leaves C, the shares, T and the allowed speeds, the tables in use and the load of every drive. -/
theorem State.GovernorStep.of_pumps (pumps : t.pgv.pumps = s.pgv.pumps) (total : t.pgv.total = s.pgv.total)
    (excess : s.ExcessLaw → t.ExcessLaw) (tables : t.tables = s.tables) (held : s.TablesLaw → t.cfg.held.InRange)
    (loads : ∀ i : Pump, s.dlc[i].SameLoad t.dlc[i]) : s.GovernorStep R t where
  ledger := fun ⟨sum, shares⟩ =>
    ⟨by rw [total, pumps, sum], fun i => (shares i).of_same (by rw [pumps]) (by rw [pumps]) tables (loads i)⟩
  excess := excess
  tables := fun law => ⟨tables ▸ law.1, held law⟩
  allowed _ law i := by rw [pumps, tables]; exact law i
  commanded i := .inl (by rw [pumps])

/-- An operation that leaves the governor and the tables, and the load of every drive. -/
theorem State.GovernorStep.of_loads (pgv : t.pgv = s.pgv) (tables : t.tables = s.tables) (cfg : t.cfg = s.cfg)
    (loads : ∀ i : Pump, s.dlc[i].SameLoad t.dlc[i]) : s.GovernorStep R t :=
  .of_pumps (by rw [pgv]) (by rw [pgv]) (by rw [State.ExcessLaw, State.ExcessLaw, pgv]; exact id) tables
    (fun law => cfg ▸ law.2) loads

/-- An operation that leaves the governor, the drives and the tables. -/
theorem State.GovernorStep.of_within {w : List Part} (h : s.Within w t) (frame : .pgv ∉ w ∧ .dlc ∉ w ∧ .tables ∉ w ∧ .cfg ∉ w) :
    s.GovernorStep R t := by
  obtain ⟨pgv, dlc, tables, cfg⟩ := frame
  have same : t.dlc = s.dlc := h.same .dlc dlc
  exact .of_loads (h.same .pgv pgv) (h.same .tables tables) (h.same .cfg cfg) fun i => same ▸ .refl _

theorem State.GovernorStep.refl (s : State) : s.GovernorStep R s := .of_within (.refl [] s) (by simp)

theorem State.GovernorStep.when {c : Prop} [Decidable c] (h : s.GovernorStep R t) : s.GovernorStep R (if c then t else s) := by
  split
  · exact h
  · exact .refl s

theorem State.Lowers.foldl {α : Type} {f : State → α → State} (h : ∀ (s : State) a, s.Lowers (f s a)) (l : List α) (s : State) :
    s.Lowers (l.foldl f s) := by
  induction l generalizing s with
  | nil => exact .refl s
  | cons a l ih => exact (h s a).next (ih _)

/-- The channels of a list, none of which raises a commanded speed. -/
theorem State.Lowers.eachChannel {f : State → Tally → Channel → State × Tally} (h : ∀ s n c, State.Lowers s (f s n c).1)
    (ns : List Nat) (s : State) : s.Lowers (s.eachChannel f ns).1 := by
  unfold State.eachChannel
  generalize Tally.zero = n
  induction ns generalizing s n with
  | nil => exact .refl s
  | cons a ns ih =>
    refine State.GovernorStep.next ?_ (ih (perChannel f (s, n) a).1 (perChannel f (s, n) a).2)
    unfold perChannel
    split
    · exact h ..
    · exact .refl s

/-- A request served does to the governor what its owning block does. -/
theorem State.GovernorStep.served {p : Port} {kind : Byte} {mine : List Byte → Bool} {take : List Byte → State → Reply}
    (h : (.next (s.serveWhen p kind mine take) : Host.Outcome State Fault Refusal) = .next t)
    (k : ∀ body, s.Lowers (take body s).1) : s.GovernorStep R t := by
  obtain rfl := Host.Outcome.next.inj h
  exact State.serveWhen_keeps (P := s.GovernorStep R) (.refl s) fun _ _ _ _ =>
    (k _).next (.of_within (State.answer_within ..) (by cases p <;> decide))

/-- A line state put in its place after the operation. -/
theorem State.GovernorStep.withLine (h : s.GovernorStep R t) (l : Line) (x : LineState) : s.GovernorStep R (t.withLine l x) :=
  ⟨h.ledger, h.excess, h.tables, h.allowed, h.commanded⟩

theorem State.GovernorStep.of_next (h : (.next u : Host.Outcome State Fault Refusal) = .next t) (k : s.GovernorStep R u) :
    s.GovernorStep R t := Host.Outcome.next.inj h ▸ k

end steps

/-! ## Drive state reports (R97–R100) -/

/-- A report of drive `i` takes `s` to `t`: whatever the ledger held for the drive before, all is right after it. -/
structure State.Settles (i : Pump) (raised : Pump → Prop) (s t : State) : Prop where
  ledger : (∀ j, j ≠ i → s.ShareLaw j) → t.LedgerLaw
  excess : t.ExcessLaw
  tables : t.tables = s.tables
  cfg : t.cfg = s.cfg
  allowed : ∀ j : Pump, t.pgv.pumps[j].allowed = s.pgv.pumps[j].allowed
  commanded : ∀ j : Pump, t.pgv.pumps[j].commanded ≤ s.pgv.pumps[j].commanded ∨ raised j

section reports

variable {s t u : State} {R R' : Pump → Prop} {i : Pump}

theorem State.Settles.step (h : s.Settles i R t) : s.GovernorStep R t where
  ledger law := h.ledger fun j _ => law.2 j
  excess _ := h.excess
  tables law := by rw [State.TablesLaw, h.tables, h.cfg]; exact law
  allowed _ law j := by rw [h.allowed, h.tables]; exact law j
  commanded := h.commanded

theorem State.Settles.mono (h : s.Settles i R t) (k : ∀ j, R j → R' j) : s.Settles i R' t :=
  ⟨h.ledger, h.excess, h.tables, h.cfg, h.allowed, fun j => (h.commanded j).imp_right (k j)⟩

/-- Notices after a report. -/
theorem State.Settles.raise (h : s.Settles i R t) (k : NoticeKind) (subject detail : Nat) :
    s.Settles i R (t.raise k subject detail) :=
  ⟨h.ledger, h.excess, h.tables, h.cfg, h.allowed, h.commanded⟩

/-- Two reports of one drive in turn. -/
theorem State.Settles.next (h : s.Settles i R t) (k : t.Settles i R' u)
    (later : ∀ j, R j → u.pgv.pumps[j].commanded ≤ s.pgv.pumps[j].commanded ∨ R' j) : s.Settles i R' u where
  ledger others := k.ledger fun j _ => (h.ledger others).2 j
  excess := k.excess
  tables := k.tables.trans h.tables
  cfg := k.cfg.trans h.cfg
  allowed j := (k.allowed j).trans (h.allowed j)
  commanded j := by
    rcases k.commanded j with lower | raised
    · exact (h.commanded j).elim (fun first => .inl (lower.trans first)) (later j)
    · exact .inr raised

/-- What stood in the record of the drive before its report does not matter. -/
theorem State.Settles.of_withDrive {d : DriveRecord} (h : (s.withDrive i d).Settles i R t) : s.Settles i R t where
  ledger others := h.ledger fun j other => (others j other).of_same rfl rfl rfl (by
    rw [State.withDrive_drive, if_neg (Ne.symm other)]
    exact .refl _)
  excess := h.excess
  tables := h.tables
  cfg := h.cfg
  allowed := h.allowed
  commanded := h.commanded

theorem State.withPump_budgetTest_pump (s : State) (i j : Pump) (p : PumpState) :
    (s.withPump i p).budgetTest.pgv.pumps[j] = if i = j then p else s.pgv.pumps[j] := by
  rw [State.budgetTest_pumps, State.withPump, State.withPgv_pgv, pumps_set]

/-- New values of a pump, its share by R97, then T and the budget test. -/
theorem State.withPump_settles {p : PumpState} (allowed : p.allowed = s.pgv.pumps[i].allowed)
    (share : p.share = shareFor s.tables.pumps[i].prated s.dlc[i] p.commanded)
    (rest : s.dlc[i].governed = false → p.commanded = 0)
    (raised : p.commanded ≤ s.pgv.pumps[i].commanded ∨ R i) : s.Settles i R (s.withPump i p).budgetTest := by
  have pump (j : Pump) := s.withPump_budgetTest_pump i j p
  have tables : (s.withPump i p).budgetTest.tables = s.tables := State.budgetTest_tables _
  have dlc : (s.withPump i p).budgetTest.dlc = s.dlc := State.budgetTest_dlc _
  refine ⟨fun others => ⟨?_, fun j => ?_⟩, State.budgetTest_excessLaw _, tables, State.budgetTest_cfg _, fun j => ?_, fun j => ?_⟩
  · rw [State.budgetTest_total, State.budgetTest_pumps]
    rfl
  · by_cases same : i = j
    · subst same
      rw [State.ShareLaw, pump, if_pos rfl, tables, dlc]
      exact ⟨share, rest⟩
    · have kept := (pump j).trans (if_neg same)
      exact (others j (Ne.symm same)).of_same (by rw [kept]) (by rw [kept]) tables (dlc ▸ .refl _)
  · rw [pump]
    split
    · subst j; exact allowed
    · rfl
  · rw [pump]
    split
    · subst j; exact raised
    · exact .inl (le_refl _)

theorem State.driveReport_settles (s : State) (i : Pump) : s.Settles i (fun _ => False) (s.driveReport i) := by
  refine State.withPump_settles rfl rfl (fun ungoverned => if_neg (Bool.eq_false_iff.mp ungoverned)) (.inl ?_)
  dsimp only
  split
  · exact le_refl _
  · exact Nat.zero_le _

theorem State.driveReportAtRest_settles (s : State) (i : Pump) : s.Settles i (fun _ => False) (s.driveReportAtRest i) :=
  State.withPump_settles rfl rfl (fun _ => rfl) (.inl (Nat.zero_le _))

/-- The adoption of a speed (R100) raises only the pump of the drive, which the governor then commands. -/
theorem State.adopt_settles (governed : s.dlc[i].governed = true) (speed : Nat) : s.Settles i (· = i) (s.adopt i speed) :=
  State.withPump_settles rfl (shareFor_governed governed ..).symm
    (fun ungoverned => absurd governed (Bool.eq_false_iff.mp ungoverned)) (.inr rfl)

theorem State.changeDrive_settles (s : State) (i : Pump) (d : DriveRecord) :
    s.Settles i (fun _ => False) (s.changeDrive i d) :=
  .of_withDrive ((s.withDrive i d).driveReport_settles i)

theorem State.changeDrive_lowers (s : State) (i : Pump) (d : DriveRecord) : s.Lowers (s.changeDrive i d) :=
  (s.changeDrive_settles i d).step

/-- A record replaced by one of the same load need not be reported. -/
theorem State.withDrive_lowers {d : DriveRecord} (load : s.dlc[i].SameLoad d) : s.Lowers (s.withDrive i d) := by
  refine .of_loads rfl rfl rfl fun j => ?_
  rw [State.withDrive_drive]
  split
  · subst j; exact load
  · exact .refl _

theorem State.raise_lowers (s : State) (k : NoticeKind) (subject detail : Nat) : s.Lowers (s.raise k subject detail) :=
  .of_loads rfl rfl rfl fun _ => .refl _

end reports

end Sys2Proof.Machine
end

section
namespace Sys2Proof.Machine

/-- The pump's commanded speed is the actual speed in its drive's record, as after an adoption (R100). -/
def State.Adopted (t : State) (i : Pump) : Prop :=
  ∃ x, t.dlc[i].telemetry = some x ∧ t.pgv.pumps[i].commanded = x.speed

section driveLine

variable {s t : State} {i : Pump}

/-! ## Power requests (R132–R135) -/

/-- A request for off changes at most the drive's power state and what is pending (R133). -/
theorem State.takePowerOff_eq (s : State) (i : Pump) : s.takePowerOff i = s ∨
    ∃ p, s.takePowerOff i = s.changeDrive i { s.dlc[i] with power := .poweringDown, pending := some p } := by
  unfold State.takePowerOff
  simp only
  split
  · exact .inr ⟨_, rfl⟩
  · exact .inr ⟨_, rfl⟩
  · exact .inr ⟨_, rfl⟩
  all_goals exact .inl rfl

theorem State.takePowerOff_lowers (s : State) (i : Pump) : s.Lowers (s.takePowerOff i) := by
  rcases s.takePowerOff_eq i with same | ⟨p, changed⟩
  · rw [same]; exact .refl s
  · rw [changed]; exact s.changeDrive_lowers i _

theorem State.takePowerOn_lowers (s : State) (i : Pump) : s.Lowers (s.takePowerOn i) := by
  unfold State.takePowerOn
  simp only
  split
  · exact s.changeDrive_lowers i _
  · split <;> exact s.changeDrive_lowers i _
  · exact s.changeDrive_lowers i _
  all_goals exact .refl s

theorem State.holdOff_lowers (s : State) (i : Pump) : s.Lowers (s.holdOff i) := .when (s.takePowerOff_lowers i)

theorem drivePowerRequest_lowers (s : State) (body : List Byte) : s.Lowers (drivePowerRequest body s).1 := by
  unfold drivePowerRequest powerOnRequest powerOffRequest refuse
  split
  · split
    · exact .refl s
    split
    · split
      · exact .refl s
      split
      · exact .refl s
      split
      · exact .refl s
      · exact s.takePowerOn_lowers _
    split
    · split
      · exact .refl s
      · exact s.takePowerOff_lowers _
    · exact .refl s
  · exact .refl s

theorem driveClearRequest_lowers (s : State) (body : List Byte) : s.Lowers (driveClearRequest body s).1 := by
  unfold driveClearRequest refuse
  split
  · split
    · exact .refl s
    simp only
    split
    · exact State.withDrive_lowers (.of_fields rfl rfl fun _ => rfl)
    · exact .refl s
  · exact .refl s

theorem State.armPowerOn_lowers (s : State) : s.Lowers s.armPowerOn :=
  .foldl (fun s i => .when (s.changeDrive_lowers i _)) _ s

theorem State.takeArm_lowers (s : State) (ms : Nat) (e : Option Nat) (silent : Bool) : s.Lowers (s.takeArm ms e silent) := by
  unfold State.takeArm
  refine State.GovernorStep.next ?_ (.of_within (State.seqTake_within ..) (by decide))
  exact State.GovernorStep.next (.of_within (State.withPlu_within ..) (by decide)) (State.armPowerOn_lowers _)

theorem armRequest_lowers (s : State) (body : List Byte) : s.Lowers (armRequest body s).1 := by
  unfold armRequest refuse
  split
  · exact .refl s
  split
  · exact .refl s
  split
  all_goals try exact .refl s
  split
  · exact .refl s
  · dsimp only
    exact s.takeArm_lowers ..

theorem State.holdOffChannel_lowers (s : State) (c : Channel) (l : Lockout) : s.Lowers (s.holdOffChannel c l) := by
  unfold State.holdOffChannel
  split
  · exact .when (s.holdOff_lowers _)
  · exact .refl s

theorem State.lockChannel_lowers (l : Channel → Lockout) (s : State) (n : Tally) (c : Channel) :
    s.Lowers (State.lockChannel l s n c).1 := by
  have locked : s.Lowers ((s.loseClaim c (l c).reason).withRecord c ⟨none, some (l c), none⟩) :=
    .of_within ((State.loseClaim_within ..).next (State.withRecord_within ..) (w := [.mpConsole, .cha]) (by simp)) (by decide)
  exact locked.next (State.holdOffChannel_lowers ..)

theorem lockoutRequest_lowers (s : State) (body : List Byte) : s.Lowers (lockoutRequest body s).1 := by
  unfold lockoutRequest refuse
  split
  · exact .refl s
  · exact .eachChannel (State.lockChannel_lowers _) _ s

theorem State.powerTimeout_lowers (s : State) (i : Pump) : s.Lowers (s.powerTimeout i) :=
  ((s.changeDrive_settles i _).raise ..).step

/-! ## The passing of time and the frames of the drive line (R2, R124) -/

theorem State.tick_lowers (s : State) : s.Lowers s.tick := by
  refine .of_loads s.tick_pgv s.tick_tables (s.tick_within.same .cfg (by decide)) fun i => ?_
  rw [State.tick_drive]
  split <;> exact .of_fields rfl rfl fun _ => rfl

theorem State.serveEntry_lowers (s : State) : s.Lowers s.serveEntry := by
  have within := s.serveEntry_within
  refine .of_loads (within.same .pgv (by decide)) (within.same .tables (by decide)) (within.same .cfg (by decide)) fun i => ?_
  rcases s.serveEntry_drive i with same | framed
  · rw [same]; exact .refl _
  · rw [framed]; exact .of_fields rfl rfl fun _ => rfl

theorem State.slotExpiry_lowers (s : State) : s.Lowers s.slotExpiry :=
  (s.tick_lowers.next (State.serveEntry_lowers _)).next (.of_within (State.withFsc_within ..) (by decide))

theorem State.handNull_lowers (s : State) (d : Pump) (f : DriveFrame) : s.Lowers (s.handNull d f) := by
  have within := s.handNull_within d f
  refine .of_loads (within.same .pgv (by decide)) (within.same .tables (by decide)) (within.same .cfg (by decide)) fun i => ?_
  rcases s.handNull_drive d i f with same | ⟨rfl, -, -, deadline⟩
  · rw [same]; exact .refl _
  · rw [deadline]; exact .of_fields rfl rfl fun _ => rfl

/-! ## The judgement of replies (R125–R131) -/

theorem State.missReply_lowers (s : State) (i : Pump) : s.Lowers (s.missReply i) := by
  unfold State.missReply
  simp only
  split
  · exact State.withDrive_lowers (.of_fields rfl rfl fun _ => rfl)
  · exact ((s.changeDrive_settles i _).raise ..).step

theorem State.trip_settles (running : s.dlc[i].power ≠ .fault) (f : DriveFrame) (t : Telemetry) :
    s.Settles i (fun _ => False) (s.trip i f t) := by
  unfold State.trip
  simp only
  rw [if_pos running]
  exact (s.changeDrive_settles i _).raise ..

/-- A trip of a drive in FAULT is not reported to the governor: the drive has no share (R127). -/
theorem State.trip_lowers (fault : s.dlc[i].power = .fault) (f : DriveFrame) (t : Telemetry) : s.Lowers (s.trip i f t) := by
  have kept {p : Option PendingCommand} {c : FaultCause} : s.Lowers (s.withDrive i { s.dlc[i] with fault := some c, pending := p }) :=
    State.withDrive_lowers (.of_fields rfl rfl fun _ => rfl)
  unfold State.trip
  simp only
  rw [if_neg (not_not_intro fault)]
  split
  · split
    · exact kept.next (State.raise_lowers ..)
    · exact kept
  · exact kept

theorem State.localReply_settles (s : State) (i : Pump) : s.Settles i (fun _ => False) (s.localReply i) := by
  unfold State.localReply
  simp only
  split
  · exact s.changeDrive_settles i _
  · exact s.driveReport_settles i

/-- The judgement of a drive as found keeps its presence and telemetry (R130). -/
theorem State.foundRecord_fields (s : State) (i : Pump) (r : Reported) (t : Telemetry) :
    (s.foundRecord i r t).present = s.dlc[i].present ∧ (s.foundRecord i r t).telemetry = s.dlc[i].telemetry := by
  unfold State.foundRecord
  simp only
  split
  · exact ⟨rfl, rfl⟩
  · split <;> exact ⟨rfl, rfl⟩

theorem State.foundRecord_ready {t : Telemetry} (fine : isTrip .ready t = false) : (s.foundRecord i .ready t).power = .on := by
  unfold State.foundRecord
  rw [fine]
  rfl

/-- A drive found READY has its speed adopted; every other found drive is reported at rest (R130). -/
theorem State.takeFound_settles {x : Telemetry} (present : s.dlc[i].present = true) (telemetry : s.dlc[i].telemetry = some x)
    (r : Reported) (returning : Bool) : s.Settles i (s.takeFound i r x returning).Adopted (s.takeFound i r x returning) := by
  obtain ⟨presence, stored⟩ := s.foundRecord_fields i r x
  unfold State.takeFound
  simp only
  split
  · rename_i adopts
    obtain ⟨fine, rfl, -⟩ := adopts
    have found : (s.withDrive i (s.foundRecord i .ready x)).dlc[i] = s.foundRecord i .ready x := by
      rw [State.withDrive_drive, if_pos rfl]
    have governed : (s.withDrive i (s.foundRecord i .ready x)).dlc[i].governed = true := by
      rw [found, DriveRecord.governed, presence, present, State.foundRecord_ready fine]
      rfl
    refine (State.adopt_settles governed x.speed).of_withDrive.mono ?_
    rintro j rfl
    refine ⟨x, ?_, ?_⟩
    · rw [State.adopt, State.budgetTest_dlc, State.withPump, State.withPgv_dlc, found, stored, telemetry]
    · rw [State.adopt, State.withPump_budgetTest_pump, if_pos rfl]
  · exact (State.driveReportAtRest_settles _ i).of_withDrive.mono fun _ => False.elim

/-- The power-off of a found drive on a held-off pump leaves an adopted speed, or none (R98, R130). -/
theorem State.Settles.foundHeldOff (h : s.Settles i t.Adopted t) : s.Settles i (t.foundHeldOff i).Adopted (t.foundHeldOff i) := by
  unfold State.foundHeldOff
  split
  · rcases t.takePowerOff_eq i with same | ⟨p, changed⟩
    · rw [same]; exact h
    · rw [changed]
      refine h.next (t.changeDrive_settles i _ |>.mono fun _ => False.elim) ?_
      rintro j ⟨x, telemetry, commanded⟩
      rw [State.Adopted, State.changeDrive_pump, State.changeDrive_drive]
      split
      · subst j
        cases DriveRecord.governed _
        · exact .inl (Nat.zero_le _)
        · exact .inr ⟨x, telemetry, commanded⟩
      · exact .inr ⟨x, telemetry, commanded⟩
  · exact h

theorem State.found_settles {x : Telemetry} (present : s.dlc[i].present = true) (telemetry : s.dlc[i].telemetry = some x)
    (r : Reported) : s.Settles i (s.found i r x).Adopted (s.found i r x) := by
  have taken := State.takeFound_settles present telemetry r (s.dlc[i].power = .underLocal)
  refine State.Settles.foundHeldOff ?_
  split
  · exact taken.raise ..
  · exact taken

theorem State.probeAnswered_settles (s : State) (i : Pump) (r : Reported) (x : Telemetry) :
    s.Settles i (s.probeAnswered i r x).Adopted (s.probeAnswered i r x) := by
  have probed : (s.withDrive i { s.dlc[i] with present := true, misses := 0, telemetry := some x, age := 0 }).dlc[i] =
      { s.dlc[i] with present := true, misses := 0, telemetry := some x, age := 0 } := by
    rw [State.withDrive_drive, if_pos rfl]
  have taken := (State.takeFound_settles (by rw [probed]) (by rw [probed]) r false).of_withDrive
  refine State.Settles.foundHeldOff ?_
  split
  · exact (taken.raise ..).raise ..
  · exact taken.raise ..

/-- A delivered command is removed from the record and nothing else of it changes (R129). -/
theorem State.settleDelivered_drive (s : State) (i : Pump) (f : DriveFrame) (r : Reported) :
    ∃ p, (s.settleDelivered i f r).dlc[i] = { s.dlc[i] with pending := p } := by
  have removed : (s.withDrive i { s.dlc[i] with pending := none }).dlc[i] = { s.dlc[i] with pending := none } := by
    rw [State.withDrive_drive, if_pos rfl]
  unfold State.settleDelivered
  simp only
  split
  · split
    · split <;> exact ⟨none, removed⟩
    · exact ⟨none, removed⟩
  · exact ⟨_, rfl⟩

theorem State.settleDelivered_lowers (s : State) (i : Pump) (f : DriveFrame) (r : Reported) :
    s.Lowers (s.settleDelivered i f r) := by
  have removed : s.Lowers (s.withDrive i { s.dlc[i] with pending := none }) :=
    State.withDrive_lowers (.of_fields rfl rfl fun _ => rfl)
  unfold State.settleDelivered
  simp only
  split
  · split
    · split
      · exact removed.next (State.raise_lowers ..)
      · exact removed
    · exact removed
  · exact .refl s

theorem State.judgeState_step {x : Telemetry} (present : s.dlc[i].present = true) (telemetry : s.dlc[i].telemetry = some x)
    (r : Reported) (clearing : Bool) : s.GovernorStep (s.judgeState i r x clearing).Adopted (s.judgeState i r x clearing) := by
  unfold State.judgeState
  simp only
  split
  · exact (State.found_settles present telemetry _).step
  · exact (State.found_settles present telemetry _).step
  · exact (((s.changeDrive_settles i _).raise ..).step : s.Lowers _).step
  · exact (s.changeDrive_lowers i _).step
  · exact (s.changeDrive_lowers i _).step
  · exact (s.changeDrive_lowers i _).step
  · split
    · exact (s.changeDrive_lowers i _).step
    · exact .refl s
  · exact .refl s

/-- A STATE reply: of a drive under local control every judgement is reported; of any other the stored telemetry does not touch the
ledger (R126). -/
theorem State.stateReply_step (present : s.dlc[i].present = true) (f : DriveFrame) (r : Reported) (x : Telemetry) :
    s.GovernorStep (s.stateReply i f r x).Adopted (s.stateReply i f r x) := by
  have stored : (s.withDrive i { s.dlc[i] with misses := 0, telemetry := some x, age := 0 }).dlc[i] =
      { s.dlc[i] with misses := 0, telemetry := some x, age := 0 } := by
    rw [State.withDrive_drive, if_pos rfl]
  have kept (other : s.dlc[i].power ≠ .underLocal) :
      s.Lowers (s.withDrive i { s.dlc[i] with misses := 0, telemetry := some x, age := 0 }) :=
    State.withDrive_lowers (.of_fields rfl rfl fun locally => absurd locally other)
  unfold State.stateReply
  simp only
  split
  · by_cases fault : s.dlc[i].power = .fault
    · exact ((kept (by rw [fault]; decide)).next (State.trip_lowers (by rw [stored]; exact fault) f x)).step
    · exact (State.trip_settles (by rw [stored]; exact fault) f x).of_withDrive.step.mono fun _ => False.elim
  split
  · exact (State.localReply_settles _ i).of_withDrive.step.mono fun _ => False.elim
  split
  · exact (State.found_settles (by rw [stored]; exact present) (by rw [stored]) r).of_withDrive.step
  · rename_i other
    obtain ⟨p, settled⟩ := State.settleDelivered_drive
      (s.withDrive i { s.dlc[i] with misses := 0, telemetry := some x, age := 0 }) i f r
    rw [stored] at settled
    exact ((kept other).next (State.settleDelivered_lowers _ i f r)).next
      (State.judgeState_step (by rw [settled]; exact present) (by rw [settled]) r _)

theorem State.refusedReply_lowers (s : State) (i : Pump) (f : DriveFrame) : s.Lowers (s.refusedReply i f) := by
  have kept : s.Lowers (s.withDrive i { s.dlc[i] with misses := 0 }) := State.withDrive_lowers (.of_fields rfl rfl fun _ => rfl)
  unfold State.refusedReply
  simp only
  split
  · exact kept
  · split
    · exact ((s.changeDrive_settles i _).raise ..).step
    · exact kept.next (State.raise_lowers ..)

/-- The completion of an exchange raises a commanded speed only by adoption (R100, R122). -/
theorem State.completeExchange_step (s : State) (i : Pump) (f : DriveFrame) (good : Option ReplyKind) :
    s.GovernorStep (s.completeExchange i f good).Adopted (s.completeExchange i f good) := by
  unfold State.completeExchange
  split
  · exact State.stateReply_step (by assumption) f _ _
  · exact (s.refusedReply_lowers i f).step
  · exact (s.missReply_lowers i).step
  · exact (s.probeAnswered_settles i _ _).step
  · exact .refl s

end driveLine

end Sys2Proof.Machine
end

section
namespace Sys2Proof.Machine

/-! ## The command computation (R104–R110) -/

section computation

variable (s : State) (i : Pump)

/-- Step 3 finds the largest speed within the headroom, held at C while T exceeds B (R107). -/
theorem State.budgetFit_eq (d1 : Nat) : ∃ fit, fit ≤ d1 ∧
    powerAt s.tables.pumps[i].prated fit ≤ s.pgv.budget - (s.pgv.total - s.pgv.pumps[i].share) ∧
    (∀ x, x ≤ d1 → powerAt s.tables.pumps[i].prated x ≤ s.pgv.budget - (s.pgv.total - s.pgv.pumps[i].share) → x ≤ fit) ∧
    s.budgetFit i d1 = if s.pgv.budget < s.pgv.total then min fit s.pgv.pumps[i].commanded else fit := by
  obtain ⟨within, power, largest⟩ := fitSpeed_spec s.tables.pumps[i].prated
    (s.pgv.budget - (s.pgv.total - s.pgv.pumps[i].share)) d1
  exact ⟨_, within, power, largest, rfl⟩

/-- Step 4 raises no demand (R108). -/
theorem State.runRules_le (d2 : Nat) : s.runRules i d2 ≤ d2 := by
  unfold State.runRules
  simp only
  split
  · exact Nat.zero_le _
  · split <;> omega

theorem State.broughtDown_iff : s.broughtDown i = true ↔
    s.estop = true ∨ s.dlc[i].power = .poweringDown ∨ s.plm.lowWater = true := by
  simp only [State.broughtDown, Bool.or_eq_true, decide_eq_true_eq, or_assoc]

variable {s i}

theorem State.aim_of_broughtDown (h : s.broughtDown i = true) (demand : Nat) : s.aim i demand = 0 := if_pos h

theorem State.aim_of_running (h : s.broughtDown i = false) (demand : Nat) :
    s.aim i demand = s.runRules i (s.budgetFit i (min demand s.pgv.pumps[i].allowed)) := if_neg (Bool.eq_false_iff.mp h)

/-- An aim above C is taken outside an emergency stop and within budget, from a demand that the allowed speed caps, and fits the headroom
(R106, R107, R110). -/
theorem State.aim_raised {demand : Nat} (h : s.pgv.pumps[i].commanded < s.aim i demand) :
    s.estop = false ∧ s.pgv.total ≤ s.pgv.budget ∧ s.aim i demand ≤ s.pgv.pumps[i].allowed ∧
      powerAt s.tables.pumps[i].prated (s.aim i demand) ≤ s.pgv.budget - (s.pgv.total - s.pgv.pumps[i].share) := by
  cases down : s.broughtDown i with
  | true => rw [State.aim_of_broughtDown down] at h; omega
  | false =>
    have clear : s.estop = false := Bool.eq_false_iff.mpr fun stopped =>
      Bool.eq_false_iff.mp down ((s.broughtDown_iff i).mpr (.inl stopped))
    rw [State.aim_of_running down] at h ⊢
    obtain ⟨fit, capped, power, -, held⟩ := s.budgetFit_eq i (min demand s.pgv.pumps[i].allowed)
    have ruled := s.runRules_le i (s.budgetFit i (min demand s.pgv.pumps[i].allowed))
    split at held
    · omega
    · rename_i within
      rw [held] at ruled ⊢
      exact ⟨clear, Nat.not_lt.mp within, by omega, (powerAt_mono _ ruled).trans power⟩

/-- A step upward goes toward an aim above C, by no more than RU allows (R109). -/
theorem State.slewed_raised {d3 : Nat} (h : s.pgv.pumps[i].commanded < s.slewed i d3) :
    s.pgv.pumps[i].commanded < d3 ∧ s.slewed i d3 ≤ d3 ∧
      s.slewed i d3 - s.pgv.pumps[i].commanded ≤ s.tables.pumps[i].ru * s.sinceCommand i / 1000 := by
  unfold State.slewed at h ⊢
  simp only at h ⊢
  split
  · rename_i upward
    rw [State.slewStep, if_pos upward]
    omega
  · rename_i downward
    rw [if_neg downward] at h
    split at h <;> omega

end computation

/-- What a computation that raises C keeps: no emergency stop, the budget before and after it, the allowed speed and the ramp (R110, R113,
R169). -/
structure State.RaisesWithin (s t : State) (i : Pump) : Prop where
  clear : s.estop = false
  budget : s.pgv.total ≤ s.pgv.budget
  allowed : t.pgv.pumps[i].commanded ≤ s.pgv.pumps[i].allowed
  total : s.LedgerLaw → t.pgv.total ≤ t.pgv.budget
  ramp : t.pgv.pumps[i].commanded - s.pgv.pumps[i].commanded ≤ s.tables.pumps[i].ru * s.sinceCommand i / 1000

section computation

variable {s : State} {i : Pump}

/-- The values of a pump that the governor commands after a computation (R109). -/
def State.commandedPump (s : State) (i : Pump) (demand : Nat) : PumpState :=
  let d3 := s.aim i (if s.configOpen then 0 else demand)
  { s.pgv.pumps[i] with
    commanded := s.slewed i d3
    share := powerAt s.tables.pumps[i].prated (s.slewed i d3)
    lastCommand := if d3 ≠ s.pgv.pumps[i].commanded ∧ s.slewStep i d3 = 0 then s.pgv.pumps[i].lastCommand else s.now }

theorem State.computeCommand_of_governed (h : s.dlc[i].governed = true) (demand : Nat) :
    s.computeCommand i demand = (s.withPump i (s.commandedPump i demand)).budgetTest := if_pos h

theorem State.computeCommand_at_rest (h : s.dlc[i].governed = false) (demand : Nat) : s.computeCommand i demand =
    s.withPgv { s.pgv with
      pumps := s.pgv.pumps.set i { s.pgv.pumps[i] with commanded := 0, lastCommand := s.now } } :=
  if_neg (Bool.eq_false_iff.mp h)

/-- The ledger moves with the share of the pump (R97). -/
theorem State.withPump_budgetTest_total (sum : s.pgv.total = ledgerTotal s.pgv.pumps) (p : PumpState) :
    (s.withPump i p).budgetTest.pgv.total + s.pgv.pumps[i].share = s.pgv.total + p.share := by
  rw [State.budgetTest_total, sum]
  exact ledgerTotal_set ..

theorem State.commandedPump_raised {demand : Nat}
    (raised : s.pgv.pumps[i].commanded < (s.commandedPump i demand).commanded) :
    s.RaisesWithin (s.withPump i (s.commandedPump i demand)).budgetTest i := by
  obtain ⟨upward, reached, ramp⟩ := State.slewed_raised raised
  obtain ⟨clear, budget, allowed, power⟩ := State.aim_raised upward
  have pump := (s.withPump_budgetTest_pump i i (s.commandedPump i demand)).trans (if_pos rfl)
  refine ⟨clear, budget, ?_, fun law => ?_, ?_⟩
  · rw [pump]
    exact reached.trans allowed
  · have moved := State.withPump_budgetTest_total (i := i) law.1 (s.commandedPump i demand)
    have share : (s.commandedPump i demand).share ≤ s.pgv.budget - (s.pgv.total - s.pgv.pumps[i].share) :=
      (powerAt_mono _ reached).trans power
    rw [State.budgetTest_budget]
    show _ ≤ s.pgv.budget
    omega
  · rw [pump]
    exact ramp

/-- A computation raises at most its own pump, within the bounds of R110; one at rest leaves shares that do not depend on C. -/
theorem State.computeCommand_step (s : State) (i : Pump) (demand : Nat) :
    s.GovernorStep (fun j => j = i ∧ s.RaisesWithin (s.computeCommand i demand) i) (s.computeCommand i demand) := by
  cases governed : s.dlc[i].governed with
  | true =>
    rw [State.computeCommand_of_governed governed]
    refine (State.withPump_settles (s := s) (i := i) (p := s.commandedPump i demand) rfl (shareFor_governed governed ..).symm
      (fun ungoverned => absurd governed (Bool.eq_false_iff.mp ungoverned)) ?_).step
    exact (Nat.lt_or_ge _ _).symm.imp_right fun raised => ⟨rfl, State.commandedPump_raised raised⟩
  | false =>
    rw [State.computeCommand_at_rest governed]
    have pump (j : Pump) : (s.pgv.pumps.set i { s.pgv.pumps[i] with commanded := 0, lastCommand := s.now })[j] =
        if i = j then { s.pgv.pumps[i] with commanded := 0, lastCommand := s.now } else s.pgv.pumps[j] := pumps_set ..
    refine ⟨fun ⟨sum, shares⟩ => ⟨?_, fun j => ?_⟩, id, id, fun _ law j => ?_, fun j => ?_⟩
    · refine sum.trans (ledgerTotal_congr fun j => ?_)
      rw [State.withPgv_pgv, pump]
      split
      · subst j; rfl
      · rfl
    · rw [State.ShareLaw, State.withPgv_pgv, pump]
      split
      · subst j
        exact ⟨(shares i).1.trans (shareFor_ungoverned governed ..), fun _ => rfl⟩
      · exact shares j
    · rw [State.withPgv_pgv, pump]
      split
      · subst j; exact law i
      · exact law j
    · rw [State.withPgv_pgv, pump]
      split
      · exact .inl (Nat.zero_le _)
      · exact .inl (le_refl _)

end computation

/-! ## The allowed speeds (R101–R103) -/

section allowed

variable {s t : State} {i : Pump}

theorem allowedAfter_le (ceiling air allowed : Nat) : allowedAfter ceiling air allowed ≤ ceiling := by
  unfold allowedAfter
  split <;> omega

/-- A ceiling is at most the pump's peak speed (R101). -/
theorem Tables.InRange.ceiling_le {t : Tables} (ranges : t.InRange) (i : Pump) (wind : Option Nat) :
    t.ceiling i wind ≤ t.pumps[i].ps := by
  obtain ⟨-, ⟨-, -, low⟩, ⟨-, -, mid⟩, ⟨-, -, tall⟩⟩ := ranges
  cases k : t.pumps[i].windClass with
  | none => rw [t.ceiling_none i k]
  | low => exact (Tables.ceiling_bounds (k := t.low) (by rw [k]; rfl) low wind).2
  | mid => exact (Tables.ceiling_bounds (k := t.mid) (by rw [k]; rfl) mid wind).2
  | tall => exact (Tables.ceiling_bounds (k := t.tall) (by rw [k]; rfl) tall wind).2

theorem State.updateAllowed_pump (s : State) (i : Pump) : s.updateAllowed.pgv.pumps[i] = { s.pgv.pumps[i] with
    allowed := allowedAfter (s.tables.ceiling i s.windNow) s.tables.limits.air s.pgv.pumps[i].allowed } := by
  rw [State.updateAllowed, State.withPgv_pgv, Fin.getElem_fin, getElem_tabulate]

/-- The update of the allowed speeds touches nothing else of the governor. -/
theorem State.updateAllowed_lowers (s : State) : s.Lowers s.updateAllowed where
  ledger := fun ⟨sum, shares⟩ => by
    refine ⟨sum.trans (ledgerTotal_congr fun j => ?_), fun j => (shares j).of_same ?_ ?_ rfl (.refl _)⟩
    all_goals rw [State.updateAllowed_pump]
  excess := id
  tables := id
  allowed ranges _ j := by
    rw [State.updateAllowed_pump]
    exact (allowedAfter_le ..).trans (ranges.1.ceiling_le j _)
  commanded j := by
    rw [State.updateAllowed_pump]
    exact .inl (le_refl _)

theorem State.withPlm_updateAllowed_lowers (s : State) (x : Plm) : s.Lowers (s.withPlm x).updateAllowed :=
  State.GovernorStep.next (.of_within (State.withPlm_within ..) (by decide)) (State.updateAllowed_lowers _)

theorem windRequest_lowers (s : State) (body : List Byte) : s.Lowers (windRequest body s).1 := by
  unfold windRequest refuse
  split
  · exact .refl s
  · exact s.withPlm_updateAllowed_lowers _

theorem State.windGoesStale_lowers (s : State) : s.Lowers s.windGoesStale := by
  unfold State.windGoesStale
  refine State.GovernorStep.next (State.GovernorStep.next ?_ (State.raise_lowers ..)) (State.updateAllowed_lowers _)
  exact .of_within (State.withPlm_within ..) (by decide)

/-- A new budget is tested at once (R111, R112). -/
theorem budgetRequest_lowers (s : State) (body : List Byte) : s.Lowers (budgetRequest body s).1 := by
  unfold budgetRequest refuse
  split
  · exact .refl s
  · refine .of_pumps (State.budgetTest_pumps _) (State.budgetTest_total _) (fun _ => State.budgetTest_excessLaw _)
      (State.budgetTest_tables _) (fun law => ?_) fun i => ?_
    · simp only [State.budgetTest_cfg]
      exact law.2
    · simp only [State.budgetTest_dlc]
      exact .refl _

end allowed

/-! ## The tables (R93, R94, R189, R191) -/

section configuration

variable {s : State}

theorem inRange_iff {lo hi n : Nat} : inRange lo hi n = true ↔ lo ≤ n ∧ n ≤ hi := by
  simp [inRange]

theorem pumpItem_inRange {body : List Byte} {e : PumpEntry} (h : pumpItem body = some e) : e.InRange := by
  unfold pumpItem at h
  simp only at h
  split at h
  · split at h
    · rename_i ok
      simp only [Bool.and_eq_true, inRange_iff] at ok
      cases h
      unfold PumpEntry.InRange
      dsimp only
      omega
    · cases h
  · cases h

theorem curveItem_inRange {body : List Byte} {k : WindCurve} (h : curveItem body = some k) : k.InRange := by
  unfold curveItem at h
  simp only at h
  split at h
  · rename_i ok
    simp only [Bool.and_eq_true, inRange_iff] at ok
    cases h
    exact ⟨ok.1.1.2.2, ok.1.2.2, ok.2.2⟩
  · cases h

/-- What a write makes of the tables with the item that its body carries. -/
theorem Tables.inRange_of_item {α : Type} {item : Option α} {put : α → Tables} {u : Tables} (h : item.map put = some u)
    (ranges : ∀ a, item = some a → (put a).InRange) : u.InRange := by
  obtain ⟨a, carried, rfl⟩ := Option.map_eq_some_iff.mp h
  exact ranges a carried

/-- An item written into tables within their ranges leaves them so: one out of range is refused (R189). -/
theorem Tables.write_inRange {t u : Tables} {body : List Byte} (ranges : t.InRange) (h : t.write body = some u) : u.InRange := by
  obtain ⟨pumps, low, mid, tall⟩ := ranges
  unfold Tables.write at h
  simp only at h
  split at h
  · split at h
    · refine Tables.inRange_of_item h fun e item => ⟨fun i => ?_, low, mid, tall⟩
      simp only [Fin.getElem_fin, Vector.getElem_set]
      split
      · exact pumpItem_inRange item
      · exact pumps i
    · cases h
  · split at h
    · exact Tables.inRange_of_item h fun _ _ => ⟨pumps, low, mid, tall⟩
    · cases h
  · split at h
    · exact Tables.inRange_of_item h fun _ _ => ⟨pumps, low, mid, tall⟩
    · cases h
  · split at h
    · exact Tables.inRange_of_item h fun _ item => ⟨pumps, curveItem_inRange item, mid, tall⟩
    · exact Tables.inRange_of_item h fun _ item => ⟨pumps, low, curveItem_inRange item, tall⟩
    · exact Tables.inRange_of_item h fun _ item => ⟨pumps, low, mid, curveItem_inRange item⟩
    · cases h
  · split at h
    · exact Tables.inRange_of_item h fun _ _ => ⟨pumps, low, mid, tall⟩
    · cases h
  · split at h
    · exact Tables.inRange_of_item h fun _ _ => ⟨pumps, low, mid, tall⟩
    · cases h
  · cases h

/-- The held tables replaced by others within their ranges. -/
theorem State.withCfg_lowers {x : Cfg} (held : s.TablesLaw → x.held.InRange) : s.Lowers (s.withCfg x) :=
  .of_pumps rfl rfl id rfl held fun _ => .refl _

theorem configOpenRequest_lowers (s : State) (body : List Byte) : s.Lowers (configOpenRequest body s).1 := by
  unfold configOpenRequest
  split
  · exact .refl s
  split
  · exact .refl s
  split
  · exact .refl s
  split
  · exact .refl s
  · exact (State.withCfg_lowers fun law => law.1).next (.of_within (State.seqOpen_within _) (by decide))

theorem configWriteRequest_lowers (s : State) (body : List Byte) : s.Lowers (configWriteRequest body s).1 := by
  unfold configWriteRequest refuse
  split
  · exact .refl s
  split
  · rename_i written
    exact State.withCfg_lowers fun law => Tables.write_inRange law.2 written
  · exact .refl s

/-- The installation recomputes the shares and T and updates the allowed speeds from the new tables (R116, R191). -/
theorem State.install_lowers (s : State) : s.Lowers s.install := by
  have pgv : s.install.pgv = s.recomputed.budgetTest.pgv := (State.seqTake_pgv ..).trans s.tablesInstalled_pgv
  have tables : s.install.tables = s.cfg.held := (State.seqTake_tables ..).trans s.tablesInstalled_tables
  have cfg : s.install.cfg = ⟨.valid, s.cfg.held⟩ := (State.seqTake_cfg ..).trans s.tablesInstalled_cfg
  have dlc : s.install.dlc = s.dlc := s.install_within.same .dlc (by decide)
  have pumps : s.install.pgv.pumps = s.recomputed.pgv.pumps := by rw [pgv, State.budgetTest_pumps]
  refine ⟨fun ⟨_, shares⟩ => ⟨?_, fun i => ?_⟩, fun _ => ?_, fun law => ?_, fun law _ i => ?_, fun i => ?_⟩
  · rw [pumps, pgv, State.budgetTest_total]
    exact s.recomputed_total
  · rw [State.ShareLaw, pumps, tables, dlc, State.recomputed_pump]
    exact ⟨rfl, (shares i).2⟩
  · rw [State.ExcessLaw, pgv]
    exact State.budgetTest_excessLaw _
  · rw [State.TablesLaw, tables, cfg]
    exact ⟨law.2, law.2⟩
  · rw [pumps, tables, State.recomputed_pump]
    exact (allowedAfter_le ..).trans (law.2.ceiling_le i _)
  · rw [pumps, State.recomputed_pump]
    exact .inl (le_refl _)

theorem configCommitRequest_lowers (s : State) : s.Lowers (configCommitRequest s).1 := by
  unfold configCommitRequest refuse
  split
  · exact .refl s
  split
  · exact .refl s
  · exact s.install_lowers

/-- Cold reset takes every pump to rest (R117). -/
theorem State.coldReset_lowers (s : State) : s.Lowers s.coldReset where
  ledger _ := State.reset_ledgerLaw
  excess _ := by
    show State.reset.ExcessLaw
    simp [State.ExcessLaw, State.reset, Pgv.cold]
  tables _ := ⟨defaultTables_inRange, defaultTables_inRange⟩
  allowed _ _ := State.reset_allowedLaw
  commanded i := by
    rw [(s.coldReset_pump i).1]
    exact .inl (Nat.zero_le _)

end configuration

theorem bodiless_lowers {s : State} {take : State → Reply} (h : s.Lowers (take s).1) (body : List Byte) :
    s.Lowers (bodiless take body s).1 := by
  unfold bodiless
  split
  · exact h
  · exact .refl s

/-! ## Every command -/

/-- How a command can raise the commanded speed of a pump: by adoption, or by the pump's own computation (R100, R110). -/
def RaisedBy (c : Instr) (s t : State) (i : Pump) : Prop :=
  (∃ w, c = .exchangeCompletion w ∧ t.Adopted i) ∨ (c = .commandComputation i ∧ s.RaisesWithin t i)

theorem governor_ne_portPart (p : Port) :
    Part.pgv ≠ portPart p ∧ Part.dlc ≠ portPart p ∧ Part.tables ≠ portPart p ∧ Part.cfg ≠ portPart p := by
  cases p <;> decide

/-- Every command keeps the laws of the governor and raises commanded speeds only as `RaisedBy` says: most do not write the governor, the
drives and the tables, and the others report drives, update the allowed speeds, compute a command or install tables. -/
theorem exec_governorStep {c : Instr} {s t : State} (h : exec c s = .next t) : s.GovernorStep (RaisedBy c s t) t := by
  by_cases other : Part.pgv ∉ writes c ∧ Part.dlc ∉ writes c ∧ Part.tables ∉ writes c ∧ Part.cfg ∉ writes c
  · exact .of_within (exec_within h) other
  cases c with
  | coldReset => exact .of_next h s.coldReset_lowers.step
  | arm => exact .served h (armRequest_lowers s)
  | lockout => exact .served h (lockoutRequest_lowers s)
  | drivePowerOn => exact .served h (drivePowerRequest_lowers s)
  | drivePowerOff => exact .served h (drivePowerRequest_lowers s)
  | driveClear => exact .served h (driveClearRequest_lowers s)
  | wind => exact .served h (windRequest_lowers s)
  | budget => exact .served h (budgetRequest_lowers s)
  | configOpen => exact .served h (configOpenRequest_lowers s)
  | configWrite => exact .served h (configWriteRequest_lowers s)
  | configCommit => exact .served h (bodiless_lowers (configCommitRequest_lowers s))
  | slotExpiry => exact .of_next h (.when s.slotExpiry_lowers.step)
  | powerDeadlineExpiry i => exact .of_next h (.when (s.powerTimeout_lowers i).step)
  | windDeadlineExpiry => exact .of_next h (.when s.windGoesStale_lowers.step)
  | commandComputation i =>
    obtain rfl := Host.Outcome.next.inj h
    split
    · refine State.GovernorStep.withLine ((s.computeCommand_step i _).mono ?_) _ _
      rintro j ⟨rfl, clear, budget, allowed, total, ramp⟩
      exact .inr ⟨rfl, clear, budget, allowed, total, ramp⟩
    · exact .refl s
  | frameHandover l =>
    refine .of_next h ?_
    split
    · exact .when (.of_within (State.handGroup_within ..) (by decide))
    · exact .when (s.handNull_lowers _ _).step
    all_goals exact .refl s
  | exchangeCompletion window =>
    obtain rfl := Host.Outcome.next.inj h
    split
    · exact ((s.completeExchange_step _ _ _).mono fun j adopted => .inl ⟨window, rfl, adopted⟩).withLine _ _
    all_goals exact .refl s
  | _ => exact absurd (by simp [writes, governor_ne_portPart]) other

/-- Settles O45: a rise is one that `exec_governorStep` allows. -/
theorem raisesKeepTheAllowedSpeedTheBudgetAndTheRamp : Obligations.RaisesKeepTheAllowedSpeedTheBudgetAndTheRamp := by
  intro c s t i law h rises
  rcases ((exec_governorStep h).commanded i).resolve_left (Nat.not_le.mpr rises) with
    ⟨w, exchange, x, adopted⟩ | ⟨computation, within⟩
  · exact .inl ⟨w, x, exchange, adopted⟩
  · exact .inr ⟨computation, within.clear, within.budget, within.allowed, within.total law, within.ramp⟩

/-- Settles O46: every command keeps the fifth law and the flag's, and the queue of waiting commands does not touch them. -/
theorem everyStepKeepsTheLedgerLaw : Obligations.EveryStepKeepsTheLedgerLaw :=
  fun _ _ h =>
    ⟨fun law => step_keeps (P := State.LedgerLaw) (fun _ _ => id) (fun _ _ _ law h => (exec_governorStep h).ledger law) law h,
      fun law => step_keeps (P := State.ExcessLaw) (fun _ _ => id) (fun _ _ _ law h => (exec_governorStep h).excess law) law h⟩

/-- Settles O47: every command keeps the seventh law and the ranges it rests on, and the queue of waiting commands does not touch them. -/
theorem everyStepKeepsTheAllowedSpeedLaw : Obligations.EveryStepKeepsTheAllowedSpeedLaw :=
  fun _ _ ranges law h => step_keeps (P := fun s => s.TablesLaw ∧ s.AllowedLaw) (fun _ _ => id)
    (fun _ _ _ laws h => ⟨(exec_governorStep h).tables laws.1, (exec_governorStep h).allowed laws.1 laws.2⟩) ⟨ranges, law⟩ h

end Sys2Proof.Machine
end

section
namespace Sys2Proof.Machine

/-! ## COMMAND_COMPUTATION (R104–R110) -/

section computation

variable {s : State} {i : Pump}

theorem DriveRecord.governed_iff (d : DriveRecord) :
    d.governed = true ↔ d.present = true ∧ (d.power = .on ∨ d.power = .poweringDown) := by
  simp only [DriveRecord.governed, Bool.and_eq_true, Bool.or_eq_true, decide_eq_true_eq]

/-- One slew step, with the rate of its direction (R109). -/
theorem State.slewed_eq (s : State) (i : Pump) (d3 : Nat) : s.slewed i d3 =
    if s.pgv.pumps[i].commanded < d3 then
      min d3 (s.pgv.pumps[i].commanded + s.tables.pumps[i].ru * s.sinceCommand i / 1000)
    else if d3 < s.pgv.pumps[i].commanded then max d3 (s.pgv.pumps[i].commanded - s.downRate i * s.sinceCommand i / 1000)
    else s.pgv.pumps[i].commanded := by
  unfold State.slewed
  simp only
  split
  · rename_i upward
    rw [State.slewStep, if_pos upward]
  · rename_i downward
    rw [State.slewStep, if_neg downward]

/-- The scheduler gets the commanded speed that the computation leaves (R83, R104). -/
theorem exec_commandComputation {g : Gather} {v : Value} (h : s.handedOn (pumpChannel i) = some (g, v)) :
    exec (.commandComputation i) s = .next ((s.computeCommand i v.toLevel).withGather (pumpChannel i)
      (g.answered (.speed (s.computeCommand i v.toLevel).pgv.pumps[i].commanded))) := by
  show execCommandComputation i s = _
  rw [execCommandComputation, h]

/-- A computation leaves the other pumps, the budget and its own pump's allowed speed. -/
theorem State.computeCommand_keeps (s : State) (i : Pump) (demand : Nat) :
    (∀ j : Pump, j ≠ i → (s.computeCommand i demand).pgv.pumps[j] = s.pgv.pumps[j]) ∧
      (s.computeCommand i demand).pgv.budget = s.pgv.budget ∧
      (s.computeCommand i demand).pgv.pumps[i].allowed = s.pgv.pumps[i].allowed := by
  cases governed : s.dlc[i].governed with
  | true =>
    rw [State.computeCommand_of_governed governed]
    refine ⟨fun j other => ?_, State.budgetTest_budget _, ?_⟩
    · rw [State.withPump_budgetTest_pump, if_neg (Ne.symm other)]
    · rw [State.withPump_budgetTest_pump, if_pos rfl]
      rfl
  | false =>
    rw [State.computeCommand_at_rest governed]
    refine ⟨fun j other => ?_, rfl, ?_⟩
    · rw [State.withPgv_pgv, pumps_set, if_neg (Ne.symm other)]
    · rw [State.withPgv_pgv, pumps_set, if_pos rfl]

/-- The drive line after the answer of a pump (R82, R83). -/
theorem State.withGather_pump_fsc (s : State) (i : Pump) (g : Gather) :
    (s.withGather (pumpChannel i) g).fsc = s.fsc.withLine .drive (.assembling g) := by
  rw [State.withGather, lineOf_groupOf_pump (c := pumpChannel i) i.isLt]
  rfl

/-- The budget test after new values of a pump (R112). -/
theorem State.withPump_budgetTested (s : State) (i : Pump) (p : PumpState) :
    s.BudgetTested s.mpPlant (s.withPump i p).budgetTest.pgv.total (s.withPump i p).budgetTest.pgv.excess
      (s.withPump i p).budgetTest.mpPlant := by
  rw [State.budgetTest_total]
  exact (s.withPump i p).budgetTest_tested.congr rfl rfl rfl

theorem State.broughtDown_of_running (clear : s.estop = false) (on : s.dlc[i].power = .on) (water : s.plm.lowWater = false) :
    s.broughtDown i = false := by
  rw [State.broughtDown, clear, on, water]
  rfl

end computation

/-- Settles O44: at rest by its one equation, and otherwise the steps of the aim, then the slew, the ledger and the budget test. -/
theorem theCommandComputationTakesOneStep : Obligations.TheCommandComputationTakesOneStep := by
  intro s i g v handed
  obtain ⟨others, budget, allowed⟩ := s.computeCommand_keeps i v.toLevel
  refine ⟨_, exec_commandComputation handed, others, budget, allowed, ?_, fun rests => ?_, fun present running => ?_⟩
  · rw [State.withGather_pump_fsc, (s.computeCommand_within i _).same .fsc (by decide)]
    rfl
  · have ungoverned : s.dlc[i].governed = false := by
      rw [Bool.eq_false_iff, ne_eq, DriveRecord.governed_iff]
      rcases rests with absent | ⟨off, down⟩
      · simp [absent, -Fin.getElem_fin]
      · simp [off, down, -Fin.getElem_fin]
    rw [State.computeCommand_at_rest ungoverned]
    refine ⟨?_, rfl, rfl, rfl⟩
    show (Vector.set _ _ _)[i] = _
    rw [pumps_set, if_pos rfl]
  · rw [State.computeCommand_of_governed ((DriveRecord.governed_iff _).mpr ⟨present, running⟩)]
    have pump := (s.withPump_budgetTest_pump i i (s.commandedPump i v.toLevel)).trans (if_pos rfl)
    have demand : (if s.cfg.state = .opened then 0 else v.toLevel) = if s.configOpen then 0 else v.toLevel := by
      simp only [State.configOpen, decide_eq_true_eq]
    refine ⟨s.withPump_budgetTested i _, _,
      s.budgetFit i (min (if s.configOpen then 0 else v.toLevel) s.pgv.pumps[i].allowed),
      s.aim i (if s.configOpen then 0 else v.toLevel), s.downRate i, s.sinceCommand i, rfl, rfl, rfl, fun down => ?_,
      fun clear on water => ⟨?_, ?_⟩, ?_, ?_, fun sum => ?_, ?_⟩
    · exact State.aim_of_broughtDown ((s.broughtDown_iff i).mpr down) _
    · rw [demand]
      exact s.budgetFit_eq i _
    · exact State.aim_of_running (State.broughtDown_of_running clear on water) _
    · exact (congrArg PumpState.commanded pump).trans (s.slewed_eq i _)
    · show (State.budgetTest _).pgv.pumps[i].share = powerAt _ (State.budgetTest _).pgv.pumps[i].commanded
      rw [pump]
      rfl
    · exact (State.withPump_budgetTest_total sum _).trans (congrArg _ (congrArg PumpState.share pump).symm)
    · exact congrArg PumpState.lastCommand pump

end Sys2Proof.Machine
end

section
namespace Sys2Proof.Machine

/-! ## The low-water and budget tests, case by case (R112, R160) -/

section tests

variable {s : State} {level : Nat}

theorem State.lowWaterTest_sets (high : s.plm.lowWater = false) (low : level < s.tables.limits.lowLevelTrip) :
    s.lowWaterTest level = (s.withPlm { s.plm with lowWater := true }).raise .lowWater 0 level := if_pos ⟨high, low⟩

theorem State.lowWaterTest_clears (low : s.plm.lowWater = true) (high : s.tables.limits.lowLevelTrip + 50 ≤ level) :
    s.lowWaterTest level = (s.withPlm { s.plm with lowWater := false }).raise .waterOk 0 level := by
  rw [State.lowWaterTest, if_neg (by simp [low]), if_pos ⟨low, high⟩]

theorem State.lowWaterTest_stays_high (high : s.plm.lowWater = false) (above : s.tables.limits.lowLevelTrip ≤ level) :
    s.lowWaterTest level = s := by
  rw [State.lowWaterTest, if_neg (by simp [above]), if_neg (by simp [high])]

theorem State.lowWaterTest_stays_low (low : s.plm.lowWater = true) (below : level < s.tables.limits.lowLevelTrip + 50) :
    s.lowWaterTest level = s := by
  rw [State.lowWaterTest, if_neg (by simp [low]), if_neg fun h => absurd h.2 (Nat.not_le.mpr below)]

theorem State.budgetTest_sets (clear : s.pgv.excess = false) (exceeds : s.pgv.budget < s.pgv.total) :
    s.budgetTest = (s.withPgv { s.pgv with excess := true }).raise .budgetExcess 0 (s.pgv.total - s.pgv.budget) :=
  if_pos ⟨clear, exceeds⟩

theorem State.budgetTest_clears (excess : s.pgv.excess = true) (fits : s.pgv.total ≤ s.pgv.budget) :
    s.budgetTest = (s.withPgv { s.pgv with excess := false }).raise .budgetOk 0 (s.pgv.budget - s.pgv.total) := by
  rw [State.budgetTest, if_neg (by simp [excess]), if_pos ⟨excess, fits⟩]

theorem State.budgetTest_stays (right : s.ExcessLaw) : s.budgetTest = s := by
  rw [State.budgetTest, if_neg fun h => Bool.false_ne_true (h.1.symm.trans (right.mpr h.2)),
    if_neg fun h => absurd (right.mp h.1) (Nat.not_lt.mpr h.2)]

end tests

/-! ## WIND, LEVEL and BUDGET (R156, R158, R161) -/

section reports

variable (s : State) {body : List Byte}

/-- The state with a wind report stored (R156). -/
def State.withWind (s : State) (w : Nat) : State := s.withPlm { s.plm with
  windSpeed := some w, windAge := 0, windDeadline := some (after s.now s.tables.limits.windStale) }

/-- The state with a level report stored (R158). -/
def State.withLevel (s : State) (v : Nat) : State := s.withPlm { s.plm with
  basinLevel := some v, levelAge := 0, levelDeadline := some (after s.now s.tables.limits.levelStale) }

/-- The state with a new budget (R161). -/
def State.withBudget (s : State) (b : Nat) : State := s.withPgv { s.pgv with budget := b }

theorem windRequest_refused (length : body.length ≠ 2) : windRequest body s = (s, .badArgument, []) := if_pos length

theorem windRequest_accepted (length : body.length = 2) : windRequest body s =
    ((s.withWind (min (field body 0 2) 600)).updateAllowed, .ok, bytes 2 (min (field body 0 2) 600)) :=
  if_neg (not_not_intro length)

theorem levelRequest_refused (length : body.length ≠ 2) : levelRequest body s = (s, .badArgument, []) := if_pos length

theorem levelRequest_accepted (length : body.length = 2) {t : State} {low : Bool}
    (tested : (s.withLevel (min (field body 0 2) 5000)).lowWaterTest (min (field body 0 2) 5000) = t)
    (flag : t.plm.lowWater = low) :
    levelRequest body s = (t, .ok, bytes 2 (min (field body 0 2) 5000) ++ flagByte low) := by
  subst tested flag
  exact if_neg (not_not_intro length)

theorem budgetRequest_refused (length : body.length ≠ 4) : budgetRequest body s = (s, .badArgument, []) := if_pos length

theorem budgetRequest_accepted (length : body.length = 4) {t : State}
    (tested : (s.withBudget (min (field body 0 4) 4000000)).budgetTest = t) :
    budgetRequest body s = (t, .ok, bytes 4 (min (field body 0 4) 4000000)) := by
  subst tested
  exact if_neg (not_not_intro length)

/-- The allowed speeds after a wind report (R102, R156). -/
theorem State.withWind_updateAllowed_pump (w : Nat) (i : Pump) :
    (s.withWind w).updateAllowed.pgv.pumps[i] = { s.pgv.pumps[i] with
      allowed := allowedAfter (s.tables.ceiling i (some w)) s.tables.limits.air s.pgv.pumps[i].allowed } :=
  State.updateAllowed_pump ..

end reports

/-- Settles O54: what each report stores, and the test or update that follows it. -/
theorem plantReportsAreStoredAndActedOn : Obligations.PlantReportsAreStoredAndActedOn := by
  intro s tag body
  refine ⟨fun h => ⟨fun length => .of_reply rfl h (windRequest_refused s length), ?_⟩,
    fun h => ⟨fun length => .of_reply rfl h (levelRequest_refused s length), ?_⟩,
    fun h => ⟨fun length => .of_reply rfl h (budgetRequest_refused s length), ?_⟩⟩
  · rintro w length rfl
    exact ⟨_, .of_reply rfl h (windRequest_accepted s length), rfl, rfl, rfl, s.withWind_updateAllowed_pump _⟩
  · rintro v u length rfl rfl
    have answers {t : State} {low : Bool} := fun tested flag =>
      Answers.of_reply (c := .level) (tag := tag) rfl h (levelRequest_accepted s length (t := t) (low := low) tested flag)
    exact ⟨fun high low => answers (low := true) (State.lowWaterTest_sets high low) rfl,
      fun high above => answers (State.lowWaterTest_stays_high high above) high,
      fun low below => answers (State.lowWaterTest_stays_low low below) low,
      fun low high => answers (low := false) (State.lowWaterTest_clears low high) rfl⟩
  · rintro b u length rfl rfl
    have answers {t : State} := fun tested =>
      Answers.of_reply (c := .budget) (tag := tag) rfl h (budgetRequest_accepted s length (t := t) tested)
    exact ⟨fun clear exceeds => answers (State.budgetTest_sets (s := s.withBudget _) clear exceeds),
      fun excess fits => answers (State.budgetTest_clears (s := s.withBudget _) excess fits),
      fun right => answers (State.budgetTest_stays (s := s.withBudget _) right)⟩

/-! ## Staleness (R157, R159) -/

/-- The allowed speeds after the wind went STALE (R103). -/
theorem State.windGoesStale_pump (s : State) (i : Pump) : s.windGoesStale.pgv.pumps[i] = { s.pgv.pumps[i] with
    allowed := allowedAfter (s.tables.ceiling i none) s.tables.limits.air s.pgv.pumps[i].allowed } :=
  State.updateAllowed_pump ..

theorem exec_windDeadlineExpiry {s : State} {d : Time} (deadline : s.plm.windDeadline = some d) (due : reached s.now d = true) :
    exec .windDeadlineExpiry s = .next s.windGoesStale := by
  show execWindDeadlineExpiry s = _
  rw [execWindDeadlineExpiry, deadline, deadlineReached, if_pos due]

theorem exec_levelDeadlineExpiry {s : State} {d : Time} (deadline : s.plm.levelDeadline = some d) (due : reached s.now d = true) :
    exec .levelDeadlineExpiry s = .next s.levelGoesStale := by
  show execLevelDeadlineExpiry s = _
  rw [execLevelDeadlineExpiry, deadline, deadlineReached, if_pos due]

/-- Settles O55: the two expiries, each with the value last reported. -/
theorem reportsGoStaleAtTheirDeadlines : Obligations.ReportsGoStaleAtTheirDeadlines := by
  intro s d past
  have due : reached s.now d = true := decide_eq_true past
  refine ⟨fun w deadline speed => ?_, fun v deadline level => ?_⟩
  · have value : s.plm.windSpeed.getD 65535 = w := by rw [speed]; rfl
    refine ⟨_, exec_windDeadlineExpiry deadline due, rfl, ?_, ?_, rfl, s.windGoesStale_pump⟩
    all_goals
      rw [← value]
      rfl
  · rw [exec_levelDeadlineExpiry deadline due, State.levelGoesStale, level]
    rfl

end Sys2Proof.Machine
end

section
namespace Sys2Proof.Machine

/-! ## The two laws of a drive record (R119, R120, R134) -/

section records

variable {d e : DriveRecord}

/-- A record without a pending command meets the second law where its fault cause is right. -/
theorem DriveRecord.FaultLaw.of_unpending (pending : e.pending = none) (cause : e.fault.isSome = true ↔ e.power = .fault) :
    e.FaultLaw :=
  ⟨cause, fun _ h => absurd (pending.symm.trans h) nofun⟩

/-- From one power state to another, neither of them FAULT: what is then pending is no CLEAR and does not go back to FAULT. -/
theorem DriveRecord.FaultLaw.move (law : d.FaultLaw) (left : d.power ≠ .fault) (entered : e.power ≠ .fault)
    (cause : e.fault = d.fault) (pending : ∀ p, e.pending = some p → p.command ≠ .clear ∧ p.prior ≠ .fault) : e.FaultLaw := by
  refine ⟨?_, fun p h => ?_⟩
  · rw [cause, law.1]
    exact iff_of_false left entered
  · obtain ⟨command, prior⟩ := pending p h
    exact ⟨iff_of_false command entered, iff_of_false prior entered⟩

/-- Outside FAULT no pending command goes back to FAULT (R119). -/
theorem DriveRecord.FaultLaw.prior_ne {p : PendingCommand} (law : d.FaultLaw) (power : d.power ≠ .fault)
    (pending : d.pending = some p) : p.prior ≠ .fault :=
  fun prior => power ((law.2 p pending).2.mp prior)

/-- A frame delivers the one command that it is the frame of (R121, R124). -/
theorem DriveFrame.delivers_iff (f : DriveFrame) (c : DriveCommand) : f.delivers = some c ↔ f = c.frame := by
  cases c <;> rcases f with _ | (_ | _) | _ | _ <;> simp [DriveFrame.delivers, DriveCommand.frame]

/-- What is still pending of a sent frame is the pending command, if it is marked and the frame is its frame (R131, R136). -/
theorem DriveRecord.stillPending_iff {f : DriveFrame} {p : PendingCommand} :
    d.stillPending f = some p ↔ d.pending = some p ∧ p.framed = true ∧ f = p.command.frame := by
  unfold DriveRecord.stillPending
  cases d.pending with
  | none => simp
  | some q =>
    simp only [DriveFrame.delivers_iff, Option.ite_none_right_eq_some, Option.some.injEq]
    constructor
    · rintro ⟨marked, rfl⟩
      exact ⟨rfl, marked⟩
    · rintro ⟨rfl, marked⟩
      exact ⟨marked, rfl⟩

/-- A drive record becomes `e` where it was `d`, and each law that `d` meets `e` meets too. -/
structure DriveRecord.KeepsLaws (d e : DriveRecord) : Prop where
  absent : d.AbsentLaw → e.AbsentLaw
  fault : d.FaultLaw → e.FaultLaw

theorem DriveRecord.KeepsLaws.refl (d : DriveRecord) : d.KeepsLaws d := ⟨id, id⟩

theorem DriveRecord.KeepsLaws.next {f : DriveRecord} (h : d.KeepsLaws e) (k : e.KeepsLaws f) : d.KeepsLaws f :=
  ⟨k.absent ∘ h.absent, k.fault ∘ h.fault⟩

/-- Of a PRESENT drive the eleventh law asks nothing. -/
theorem DriveRecord.KeepsLaws.of_present (present : e.present = true) (fault : d.FaultLaw → e.FaultLaw) : d.KeepsLaws e :=
  ⟨fun _ absent => absurd (present.symm.trans absent) nofun, fault⟩

/-- A change of fields that neither law speaks of. -/
theorem DriveRecord.KeepsLaws.of_fields (present : e.present = d.present) (power : e.power = d.power)
    (pending : e.pending = d.pending) (cause : e.fault = d.fault) (misses : e.misses = d.misses) : d.KeepsLaws e := by
  constructor
  · rw [DriveRecord.AbsentLaw, DriveRecord.AbsentLaw, present, pending, misses]
    exact id
  · rw [DriveRecord.FaultLaw, DriveRecord.FaultLaw, power, pending, cause]
    exact id

/-- A record that loses what is pending and is given a right fault cause. -/
theorem DriveRecord.KeepsLaws.of_unpending (present : e.present = d.present) (misses : e.misses = d.misses)
    (pending : e.pending = none) (cause : d.FaultLaw → (e.fault.isSome = true ↔ e.power = .fault)) : d.KeepsLaws e :=
  ⟨fun law absent => ⟨pending, misses.trans (law (present.symm.trans absent)).2⟩, fun law => .of_unpending pending (cause law)⟩

/-- The mark of a management frame touches neither law (R124). -/
theorem DriveRecord.framing_keepsLaws (d : DriveRecord) : d.KeepsLaws d.framing := by
  refine ⟨fun law absent => ?_, fun law => ⟨law.1, fun p framed => ?_⟩⟩
  · obtain ⟨pending, misses⟩ := law absent
    rw [DriveRecord.framing_none pending]
    exact ⟨pending, misses⟩
  · obtain ⟨-, mark, pending⟩ := DriveRecord.framing_pending framed
    exact law.2 { p with framed := mark } pending

end records

/-! ## Operations on one drive -/

/-- An operation on drive `i` takes `s` to `t`: it keeps the two laws of the drive's record, and leaves the other drives and their
pumps. -/
structure State.OnDrive (i : Pump) (s t : State) : Prop where
  record : s.dlc[i].KeepsLaws t.dlc[i]
  drives : ∀ j : Pump, j ≠ i → t.dlc[j] = s.dlc[j]
  pumps : ∀ j : Pump, j ≠ i → t.pgv.pumps[j] = s.pgv.pumps[j]

section onDrive

variable {s t u : State} {i : Pump}

theorem State.OnDrive.refl (s : State) (i : Pump) : s.OnDrive i s := ⟨.refl _, fun _ _ => rfl, fun _ _ => rfl⟩

theorem State.OnDrive.next (h : s.OnDrive i t) (k : t.OnDrive i u) : s.OnDrive i u where
  record := h.record.next k.record
  drives j other := (k.drives j other).trans (h.drives j other)
  pumps j other := (k.pumps j other).trans (h.pumps j other)

theorem State.OnDrive.when {c : Prop} [Decidable c] (h : c → s.OnDrive i t) : s.OnDrive i (if c then t else s) := by
  split
  · exact h ‹c›
  · exact .refl s i

theorem State.OnDrive.raise (h : s.OnDrive i t) (k : NoticeKind) (subject detail : Nat) :
    s.OnDrive i (t.raise k subject detail) := ⟨h.record, h.drives, h.pumps⟩

@[simp] theorem State.withDrive_self (s : State) (i : Pump) (d : DriveRecord) : (s.withDrive i d).dlc[i] = d := by
  rw [State.withDrive_drive, if_pos rfl]

theorem State.withDrive_onDrive {d : DriveRecord} (keeps : s.dlc[i].KeepsLaws d) : s.OnDrive i (s.withDrive i d) := by
  refine ⟨?_, fun j other => ?_, fun _ _ => rfl⟩
  · rw [State.withDrive_self]
    exact keeps
  · rw [State.withDrive_drive, if_neg (Ne.symm other)]

/-- New values of the drive's pump, T and the budget test: what every report to the governor comes to (R98–R100). -/
theorem State.withPump_onDrive (s : State) (i : Pump) (p : PumpState) : s.OnDrive i (s.withPump i p).budgetTest := by
  have records : (s.withPump i p).budgetTest.dlc = s.dlc := State.budgetTest_dlc _
  refine ⟨?_, fun j _ => ?_, fun j other => ?_⟩
  · rw [records]
    exact .refl _
  · rw [records]
  · rw [State.withPump_budgetTest_pump, if_neg (Ne.symm other)]

theorem State.changeDrive_onDrive {d : DriveRecord} (keeps : s.dlc[i].KeepsLaws d) : s.OnDrive i (s.changeDrive i d) :=
  (State.withDrive_onDrive keeps).next (State.withPump_onDrive ..)

/-! ### Power requests and deadlines (R132–R135, R137) -/

theorem State.takePowerOff_onDrive (present : s.dlc[i].present = true) : s.OnDrive i (s.takePowerOff i) := by
  have down {prior : Power} (power : s.dlc[i].power ≠ .fault) (right : s.dlc[i].FaultLaw → prior ≠ .fault) : s.OnDrive i
      (s.changeDrive i { s.dlc[i] with power := .poweringDown, pending := some ⟨.powerOff, s.now, prior, false⟩ }) :=
    State.changeDrive_onDrive (.of_present present fun law =>
      law.move power nofun rfl fun _ pending => Option.some.inj pending ▸ ⟨nofun, right law⟩)
  unfold State.takePowerOff
  simp only
  split
  · next power => exact down (by rw [power]; nofun) fun _ => nofun
  · next power pending =>
    have running : s.dlc[i].power ≠ .fault := by rw [power]; nofun
    exact down running fun law => law.prior_ne running pending
  · next power _ => exact down (by rw [power]; nofun) fun _ => nofun
  all_goals exact .refl s i

theorem State.takePowerOn_onDrive (present : s.dlc[i].present = true) : s.OnDrive i (s.takePowerOn i) := by
  have up {prior : Power} (power : s.dlc[i].power ≠ .fault) (right : s.dlc[i].FaultLaw → prior ≠ .fault) : s.OnDrive i
      (s.changeDrive i { s.dlc[i] with power := .poweringUp, pending := some ⟨.powerOn, s.now, prior, false⟩ }) :=
    State.changeDrive_onDrive (.of_present present fun law =>
      law.move power nofun rfl fun _ pending => Option.some.inj pending ▸ ⟨nofun, right law⟩)
  unfold State.takePowerOn
  simp only
  split
  · next power => exact up (by rw [power]; nofun) fun _ => nofun
  · next power pending =>
    have running : s.dlc[i].power ≠ .fault := by rw [power]; nofun
    split
    · exact State.changeDrive_onDrive (.of_present present fun law => law.move running nofun rfl nofun)
    · exact State.changeDrive_onDrive (.of_present present fun law => law.move running nofun rfl nofun)
    all_goals exact up running fun law => law.prior_ne running pending
  · next power _ => exact up (by rw [power]; nofun) fun _ => nofun
  all_goals exact .refl s i

theorem State.powerTimeout_onDrive (s : State) (i : Pump) : s.OnDrive i (s.powerTimeout i) := by
  refine State.OnDrive.raise ?_ ..
  exact State.changeDrive_onDrive (.of_unpending rfl rfl rfl fun _ => iff_of_true rfl rfl)

theorem State.poweredOn_keepsLaws (s : State) (i : Pump) : s.dlc[i].KeepsLaws (s.poweredOn i) := by
  unfold State.poweredOn
  split
  · next accepts =>
    obtain ⟨present, off, -⟩ := accepts
    exact .of_present present fun law =>
      law.move (by rw [off]; nofun) nofun rfl fun _ pending => Option.some.inj pending ▸ ⟨nofun, nofun⟩
  · exact .refl _

/-! ### The judgement of replies (R125–R131) -/

theorem State.missReply_onDrive (present : s.dlc[i].present = true) : s.OnDrive i (s.missReply i) := by
  unfold State.missReply
  simp only
  split
  · exact State.withDrive_onDrive (.of_present present id)
  · refine State.OnDrive.raise ?_ ..
    exact State.changeDrive_onDrive ⟨fun _ _ => ⟨rfl, rfl⟩, fun _ => .of_unpending rfl (iff_of_false nofun nofun)⟩

theorem State.trip_onDrive (present : s.dlc[i].present = true) (f : DriveFrame) (t : Telemetry) : s.OnDrive i (s.trip i f t) := by
  unfold State.trip
  simp only
  split
  · refine State.OnDrive.raise ?_ ..
    exact State.changeDrive_onDrive (.of_unpending rfl rfl rfl fun _ => iff_of_true rfl rfl)
  · next fault =>
    have fault : s.dlc[i].power = .fault := not_not.mp fault
    have caused : s.OnDrive i (s.withDrive i { s.dlc[i] with fault := some (.trip (tripCode t)) }) :=
      State.withDrive_onDrive (.of_present present fun law => ⟨iff_of_true rfl fault, law.2⟩)
    split
    · split
      · refine State.OnDrive.raise ?_ ..
        exact State.withDrive_onDrive (.of_unpending rfl rfl rfl fun _ => iff_of_true rfl fault)
      · exact caused
    · exact caused

theorem State.localReply_onDrive (s : State) (i : Pump) : s.OnDrive i (s.localReply i) := by
  unfold State.localReply
  simp only
  split
  · exact State.changeDrive_onDrive (.of_unpending rfl rfl rfl fun _ => iff_of_false nofun nofun)
  · exact State.withPump_onDrive ..

/-- A drive judged as found holds no command, and a fault cause exactly where it has tripped (R130). -/
theorem State.foundRecord_keepsLaws (s : State) (i : Pump) (r : Reported) (t : Telemetry) :
    s.dlc[i].KeepsLaws (s.foundRecord i r t) := by
  unfold State.foundRecord
  simp only
  split
  · exact .of_unpending rfl rfl rfl fun _ => iff_of_true rfl rfl
  · cases r with
    | tripped => exact .of_unpending rfl rfl rfl fun _ => iff_of_true rfl rfl
    | _ => exact .of_unpending rfl rfl rfl fun _ => iff_of_false nofun nofun

theorem State.takeFound_onDrive (s : State) (i : Pump) (r : Reported) (t : Telemetry) (returning : Bool) :
    s.OnDrive i (s.takeFound i r t returning) := by
  have recorded := State.withDrive_onDrive (s.foundRecord_keepsLaws i r t)
  unfold State.takeFound
  simp only
  split
  · exact recorded.next (State.withPump_onDrive ..)
  · exact recorded.next (State.withPump_onDrive ..)

/-- A drive judged as found holds the record of R130. -/
theorem State.takeFound_drive (s : State) (i : Pump) (r : Reported) (t : Telemetry) (returning : Bool) :
    (s.takeFound i r t returning).dlc[i] = s.foundRecord i r t := by
  unfold State.takeFound State.adopt State.driveReportAtRest
  simp only
  split
  all_goals
    simp only [State.budgetTest_dlc]
    exact s.withDrive_self i _

theorem State.takeFound_present (present : s.dlc[i].present = true) (r : Reported) (t : Telemetry) (returning : Bool) :
    (s.takeFound i r t returning).dlc[i].present = true := by
  rw [State.takeFound_drive, (s.foundRecord_fields i r t).1, present]

theorem State.foundHeldOff_onDrive (present : s.dlc[i].present = true) : s.OnDrive i (s.foundHeldOff i) :=
  .when fun _ => State.takePowerOff_onDrive present

theorem State.found_onDrive (present : s.dlc[i].present = true) (r : Reported) (t : Telemetry) : s.OnDrive i (s.found i r t) := by
  have taken := s.takeFound_onDrive i r t (s.dlc[i].power = .underLocal)
  have present := State.takeFound_present present r t (s.dlc[i].power = .underLocal)
  unfold State.found
  simp only
  split
  · exact (taken.raise ..).next (State.foundHeldOff_onDrive present)
  · exact taken.next (State.foundHeldOff_onDrive present)

theorem State.probeAnswered_onDrive (s : State) (i : Pump) (r : Reported) (t : Telemetry) :
    s.OnDrive i (s.probeAnswered i r t) := by
  have probed : s.OnDrive i (s.withDrive i { s.dlc[i] with present := true, misses := 0, telemetry := some t, age := 0 }) :=
    State.withDrive_onDrive (.of_present rfl id)
  have taken := (probed.next (State.takeFound_onDrive _ i r t false)).raise .driveFound i.val t.speed
  have present := State.takeFound_present (s := s.withDrive i { s.dlc[i] with
    present := true, misses := 0, telemetry := some t, age := 0 }) (by rw [State.withDrive_self]) r t false
  unfold State.probeAnswered
  simp only
  split
  · exact (taken.raise ..).next (State.foundHeldOff_onDrive present)
  · exact taken.next (State.foundHeldOff_onDrive present)

theorem State.settleDelivered_onDrive (s : State) (i : Pump) (f : DriveFrame) (r : Reported) :
    s.OnDrive i (s.settleDelivered i f r) := by
  have removed : s.OnDrive i (s.withDrive i { s.dlc[i] with pending := none }) :=
    State.withDrive_onDrive (.of_unpending rfl rfl rfl And.left)
  unfold State.settleDelivered
  simp only
  split
  · split
    · split
      · exact removed.raise ..
      · exact removed
    · exact removed
  · exact .refl s i

theorem State.judgeState_onDrive (present : s.dlc[i].present = true) (r : Reported) (t : Telemetry) (clearing : Bool) :
    s.OnDrive i (s.judgeState i r t clearing) := by
  have moved {e : DriveRecord} (here : e.present = true) (left : s.dlc[i].power ≠ .fault) (entered : e.power ≠ .fault)
      (cause : e.fault = s.dlc[i].fault) (pending : e.pending = none ∨ e.pending = s.dlc[i].pending) :
      s.OnDrive i (s.changeDrive i e) := by
    refine State.changeDrive_onDrive (.of_present here fun law => law.move left entered cause fun p h => ?_)
    rcases pending with none | same
    · exact absurd (none.symm.trans h) nofun
    · obtain ⟨command, prior⟩ := law.2 p (same.symm.trans h)
      exact ⟨fun clear => left (command.mp clear), fun fault => left (prior.mp fault)⟩
  unfold State.judgeState
  simp only
  split
  · exact State.found_onDrive present ..
  · exact State.found_onDrive present ..
  · next power =>
    refine State.OnDrive.raise ?_ ..
    exact moved present (by rw [power]; nofun) nofun rfl (.inl rfl)
  · next power => exact moved present (by rw [power]; nofun) nofun rfl (.inr rfl)
  · next power => exact moved present (by rw [power]; nofun) nofun rfl (.inr rfl)
  · next power => exact moved present (by rw [power]; nofun) nofun rfl (.inl rfl)
  · exact .when fun _ => State.changeDrive_onDrive (.of_unpending rfl rfl rfl fun _ => iff_of_false nofun nofun)
  · exact .refl s i

theorem State.stateReply_onDrive (present : s.dlc[i].present = true) (f : DriveFrame) (r : Reported) (t : Telemetry) :
    s.OnDrive i (s.stateReply i f r t) := by
  have stored : s.OnDrive i (s.withDrive i { s.dlc[i] with misses := 0, telemetry := some t, age := 0 }) :=
    State.withDrive_onDrive (.of_present present id)
  have here : (s.withDrive i { s.dlc[i] with misses := 0, telemetry := some t, age := 0 }).dlc[i].present = true := by
    rw [State.withDrive_self]
    exact present
  unfold State.stateReply
  simp only
  split
  · exact stored.next (State.trip_onDrive here f t)
  split
  · exact stored.next (State.localReply_onDrive _ i)
  split
  · exact stored.next (State.found_onDrive here r t)
  · obtain ⟨p, settled⟩ := State.settleDelivered_drive
      (s.withDrive i { s.dlc[i] with misses := 0, telemetry := some t, age := 0 }) i f r
    exact (stored.next (State.settleDelivered_onDrive _ i f r)).next (State.judgeState_onDrive (by rw [settled]; exact here) r t _)

theorem State.refusedReply_onDrive (present : s.dlc[i].present = true) (f : DriveFrame) : s.OnDrive i (s.refusedReply i f) := by
  have answered : s.OnDrive i (s.withDrive i { s.dlc[i] with misses := 0 }) := State.withDrive_onDrive (.of_present present id)
  unfold State.refusedReply
  simp only
  split
  · exact answered
  · split
    · next p still =>
      have pending : s.dlc[i].pending = some p := (DriveRecord.stillPending_iff.mp still).1
      refine State.OnDrive.raise ?_ ..
      exact State.changeDrive_onDrive (.of_present present fun law =>
        .of_unpending rfl (law.1.trans (law.2 p pending).2.symm))
    · exact answered.raise ..

/-- The completion of an exchange is an operation on the drive addressed (R122). -/
theorem State.completeExchange_onDrive (s : State) (i : Pump) (f : DriveFrame) (good : Option ReplyKind) :
    s.OnDrive i (s.completeExchange i f good) := by
  unfold State.completeExchange
  split
  · next present => exact State.stateReply_onDrive present f _ _
  · next present => exact State.refusedReply_onDrive present f
  · next present _ _ => exact State.missReply_onDrive present
  · exact s.probeAnswered_onDrive i _ _
  · exact .refl s i

end onDrive

/-! ## Operations on all drives -/

/-- An operation takes `s` to `t` and keeps the two laws of every drive record. -/
structure State.OnDrives (s t : State) : Prop where
  records : ∀ i : Pump, s.dlc[i].KeepsLaws t.dlc[i]

section onDrives

variable {s t u : State} {i : Pump}

theorem State.OnDrives.of_same (h : t.dlc = s.dlc) : s.OnDrives t := ⟨fun _ => h ▸ .refl _⟩

theorem State.OnDrives.refl (s : State) : s.OnDrives s := .of_same rfl

theorem State.OnDrives.next (h : s.OnDrives t) (k : t.OnDrives u) : s.OnDrives u := ⟨fun i => (h.records i).next (k.records i)⟩

theorem State.OnDrives.when {c : Prop} [Decidable c] (h : s.OnDrives t) : s.OnDrives (if c then t else s) := by
  split
  · exact h
  · exact .refl s

/-- An operation on one drive leaves the records of the others. -/
theorem State.OnDrive.all (h : s.OnDrive i t) : s.OnDrives t := by
  refine ⟨fun j => ?_⟩
  by_cases same : j = i
  · exact same ▸ h.record
  · rw [h.drives j same]
    exact .refl _

/-- A request served does to the drives what its owning block does. -/
theorem State.OnDrives.served {p : Port} {kind : Byte} {mine : List Byte → Bool} {take : List Byte → State → Reply}
    (h : (.next (s.serveWhen p kind mine take) : Host.Outcome State Fault Refusal) = .next t)
    (k : ∀ body, s.OnDrives (take body s).1) : s.OnDrives t := by
  obtain rfl := Host.Outcome.next.inj h
  exact State.serveWhen_keeps (P := s.OnDrives) (.refl s) fun _ _ _ _ => (k _).next (.of_same (State.answer_dlc ..))

theorem State.OnDrives.of_next (h : (.next u : Host.Outcome State Fault Refusal) = .next t) (k : s.OnDrives u) : s.OnDrives t :=
  Host.Outcome.next.inj h ▸ k

theorem State.coldReset_onDrives (s : State) : s.OnDrives s.coldReset := by
  refine ⟨fun i => ?_⟩
  rw [(s.coldReset_pump i).2]
  exact ⟨fun _ _ => ⟨rfl, rfl⟩, fun _ => .of_unpending rfl (iff_of_false nofun nofun)⟩

theorem armRequest_onDrives (s : State) (body : List Byte) : s.OnDrives (armRequest body s).1 := by
  unfold armRequest refuse
  split
  · exact .refl s
  split
  · exact .refl s
  split
  all_goals try exact .refl s
  split
  · exact .refl s
  · refine ⟨fun i => ?_⟩
    dsimp only
    rw [State.takeArm_drive]
    exact s.poweredOn_keepsLaws i

/-- One channel of a LOCKOUT: at most the power-off of the pump's drive, if it is PRESENT (R71). -/
theorem State.lockChannel_onDrives (l : Channel → Lockout) (s : State) (n : Tally) (c : Channel) :
    s.OnDrives (State.lockChannel l s n c).1 := by
  have locked : ((s.loseClaim c (l c).reason).withRecord c ⟨none, some (l c), none⟩).dlc = s.dlc :=
    ((State.loseClaim_within ..).next (State.withRecord_within ..) (w := [.mpConsole, .cha]) (by simp)).same .dlc (by decide)
  refine State.OnDrives.next (.of_same locked) ?_
  unfold State.lockChannel State.holdOffChannel
  dsimp only
  split
  · exact .when (State.OnDrive.all (.when State.takePowerOff_onDrive))
  · exact .refl _

theorem lockoutRequest_onDrives (s : State) (body : List Byte) : s.OnDrives (lockoutRequest body s).1 := by
  unfold lockoutRequest refuse State.eachChannel
  split
  · exact .refl s
  · generalize Tally.zero = n, channelList _ = ns
    induction ns generalizing s n with
    | nil => exact .refl s
    | cons a ns ih =>
      refine State.OnDrives.next ?_ (ih (perChannel _ (s, n) a).1 (perChannel _ (s, n) a).2)
      unfold perChannel
      split
      · exact State.lockChannel_onDrives ..
      · exact .refl s

theorem drivePowerRequest_onDrives (s : State) (body : List Byte) : s.OnDrives (drivePowerRequest body s).1 := by
  unfold drivePowerRequest powerOnRequest powerOffRequest refuse
  split
  · split
    · exact .refl s
    split
    · split
      · exact .refl s
      next present =>
      split
      · exact .refl s
      split
      · exact .refl s
      · exact (State.takePowerOn_onDrive (Bool.eq_true_of_not_eq_false present)).all
    split
    · split
      · exact .refl s
      · next present => exact (State.takePowerOff_onDrive (Bool.eq_true_of_not_eq_false present)).all
    · exact .refl s
  · exact .refl s

/-- A CLEAR is set pending only in FAULT, with prior state FAULT (R134). -/
theorem driveClearRequest_onDrives (s : State) (body : List Byte) : s.OnDrives (driveClearRequest body s).1 := by
  unfold driveClearRequest refuse
  split
  · split
    · exact .refl s
    next i _ =>
    simp only
    split
    · next faulted =>
      obtain ⟨present, fault⟩ := faulted
      refine State.OnDrive.all (i := i) ?_
      exact State.withDrive_onDrive (.of_present present fun law =>
        ⟨law.1, fun _ pending => Option.some.inj pending ▸ ⟨iff_of_true rfl fault, iff_of_true rfl fault⟩⟩)
    · exact .refl s
  · exact .refl s

/-- A slot expiry: the ages rise, and a management frame may be built (R119, R124). -/
theorem State.slotExpiry_onDrives (s : State) : s.OnDrives s.slotExpiry := by
  have ticked : s.OnDrives s.tick := ⟨fun i => by
    rw [State.tick_drive]
    split
    · exact .refl _
    · exact .of_fields rfl rfl rfl rfl rfl⟩
  have served : s.tick.OnDrives s.tick.serveEntry := ⟨fun i => by
    rcases s.tick.serveEntry_drive i with same | framed
    · rw [same]
      exact .refl _
    · rw [framed]
      exact DriveRecord.framing_keepsLaws _⟩
  exact (ticked.next served).next (.of_same rfl)

/-- The hand-over of a management frame sets at most a power deadline (R124). -/
theorem State.handNull_onDrives (s : State) (d : Pump) (f : DriveFrame) : s.OnDrives (s.handNull d f) := by
  refine ⟨fun i => ?_⟩
  rcases s.handNull_drive d i f with same | ⟨rfl, -, -, deadline⟩
  · rw [same]
    exact .refl _
  · rw [deadline]
    exact .of_fields rfl rfl rfl rfl rfl

end onDrives

/-- Every command keeps the two laws of every drive record: most do not write the records, and the others are operations on drives. -/
theorem exec_onDrives {c : Instr} {s t : State} (h : exec c s = .next t) : s.OnDrives t := by
  by_cases other : Part.dlc ∉ writes c
  · exact .of_same ((exec_within h).same .dlc other)
  cases c with
  | coldReset => exact .of_next h s.coldReset_onDrives
  | arm => exact .served h (armRequest_onDrives s)
  | lockout => exact .served h (lockoutRequest_onDrives s)
  | drivePowerOn => exact .served h (drivePowerRequest_onDrives s)
  | drivePowerOff => exact .served h (drivePowerRequest_onDrives s)
  | driveClear => exact .served h (driveClearRequest_onDrives s)
  | slotExpiry => exact .of_next h (.when s.slotExpiry_onDrives)
  | powerDeadlineExpiry i => exact .of_next h (.when (s.powerTimeout_onDrive i).all)
  | frameHandover l =>
    refine .of_next h ?_
    split
    · exact .when (.of_same ((State.handGroup_within ..).same .dlc (by decide)))
    · exact .when (s.handNull_onDrives _ _)
    all_goals exact .refl s
  | exchangeCompletion window =>
    refine .of_next h ?_
    split
    · exact (s.completeExchange_onDrive _ _ _).all.next (.of_same rfl)
    all_goals exact .refl s
  | _ => exact absurd (by simp [writes, governor_ne_portPart]) other

/-- Settles O51: every command keeps the two laws record by record, and the queue of waiting commands does not touch them. -/
theorem everyStepKeepsTheAbsentDriveLaw : Obligations.EveryStepKeepsTheAbsentDriveLaw :=
  fun _ _ h =>
    ⟨fun law => step_keeps (P := fun s => ∀ i : Pump, s.dlc[i].AbsentLaw) (fun _ _ => id)
        (fun _ _ _ law h i => ((exec_onDrives h).records i).absent (law i)) law h,
      fun law => step_keeps (P := fun s => ∀ i : Pump, s.dlc[i].FaultLaw) (fun _ _ => id)
        (fun _ _ _ law h i => ((exec_onDrives h).records i).fault (law i)) law h⟩

end Sys2Proof.Machine
end

section
namespace Sys2Proof.Machine

/-! ## What a changed record makes of its pump (R97–R99) -/

section reports

variable {s t : State} {i : Pump} {d : DriveRecord} {q : PumpState} {ns : List (NoticeKind × Nat)}

/-- A drive that is not running and not under local control has no share. -/
theorem shareFor_rest (on : d.power ≠ .on) (down : d.power ≠ .poweringDown) (locally : d.power ≠ .underLocal) (prated c : Nat) :
    shareFor prated d c = 0 := by
  simp [shareFor, DriveRecord.governed, on, down, locally]

/-- A PRESENT drive under local control has the share of its actual speed (R99). -/
theorem shareFor_local {x : Telemetry} (present : d.present = true) (locally : d.power = .underLocal)
    (telemetry : d.telemetry = some x) (prated c : Nat) : shareFor prated d c = powerAt prated x.speed := by
  simp [shareFor, DriveRecord.governed, DriveRecord.actual, present, locally, telemetry]

/-- The values that the report of a drive record gives its pump (R98). -/
def State.reportedPump (s : State) (i : Pump) (d : DriveRecord) : PumpState :=
  { s.pgv.pumps[i] with
    commanded := if d.governed then s.pgv.pumps[i].commanded else 0
    share := shareFor s.tables.pumps[i].prated d (if d.governed then s.pgv.pumps[i].commanded else 0) }

theorem State.reportedPump_rest (s : State) (i : Pump) (on : d.power ≠ .on) (down : d.power ≠ .poweringDown)
    (locally : d.power ≠ .underLocal) : s.reportedPump i d = { s.pgv.pumps[i] with commanded := 0, share := 0 } := by
  rw [State.reportedPump, shareFor_rest on down locally, if_neg (by simp [DriveRecord.governed, on, down])]

theorem State.reportedPump_governed (s : State) (i : Pump) (governed : d.governed = true) : s.reportedPump i d =
    { s.pgv.pumps[i] with share := powerAt s.tables.pumps[i].prated s.pgv.pumps[i].commanded } := by
  rw [State.reportedPump, shareFor_governed governed, if_pos governed]

theorem State.reportedPump_local {x : Telemetry} (s : State) (i : Pump) (present : d.present = true)
    (locally : d.power = .underLocal) (telemetry : d.telemetry = some x) : s.reportedPump i d =
      { s.pgv.pumps[i] with commanded := 0, share := powerAt s.tables.pumps[i].prated x.speed } := by
  rw [State.reportedPump, shareFor_local present locally telemetry, if_neg (by simp [DriveRecord.governed, locally])]

/-! ## A drive record changed and reported, with notices (R98, R112, R181) -/

/-- A drive record and the values of its pump replaced, T recomputed and the budget test made. -/
def State.reported (s : State) (i : Pump) (d : DriveRecord) (q : PumpState) : State := ((s.withDrive i d).withPump i q).budgetTest

theorem State.changeDrive_eq (s : State) (i : Pump) (d : DriveRecord) : s.changeDrive i d = s.reported i d (s.reportedPump i d) := by
  unfold State.changeDrive State.driveReport
  simp only [State.withDrive_self]
  rfl

theorem State.reported_drive (s : State) (i : Pump) (d : DriveRecord) (q : PumpState) : (s.reported i d q).dlc[i] = d := by
  simp only [State.reported, State.budgetTest_dlc]
  exact s.withDrive_self i d

theorem State.reported_driveChanged (s : State) (i : Pump) (d : DriveRecord) (q : PumpState) :
    s.DriveChanged (s.reported i d q) i d q [] := by
  have pumps : (s.reported i d q).pgv.pumps = s.pgv.pumps.set i q := State.budgetTest_pumps _
  refine ⟨s.reported_drive i d q, pumps, ?_, State.budgetTest_budget _, State.budgetTest_mpShow _, _,
    (s.withDrive i d).withPump_budgetTested i q, rfl⟩
  rw [pumps]
  exact State.budgetTest_total _

/-- A change of a drive record, reported to the governor (R98). -/
theorem State.changeDrive_driveChanged (pump : s.reportedPump i d = q) : s.DriveChanged (s.changeDrive i d) i d q [] := by
  rw [State.changeDrive_eq, pump]
  exact s.reported_driveChanged i d q

theorem State.changeDrive_clock (s : State) (i : Pump) (d : DriveRecord) : (s.changeDrive i d).clock = s.clock :=
  (s.changeDrive_within i d).same .clock (by decide)

theorem State.placed_append (s : State) (i : Pump) (k : NoticeKind) (n : Nat) (m : MasterPort) :
    s.placed i (ns ++ [(k, n)]) m = (s.placed i ns m).place ⟨k, i.val, n, s.clock.now⟩ := List.foldl_concat ..

/-- The notices about drives: they go to the PLANT port, and DRIVE_LOST and DRIVE_FAULT to the SHOW port as well (R125, R127, R181). -/
def NoticeKind.aboutDrive (k : NoticeKind) : Bool :=
  k.raisedTo .plantPort && (k.raisedTo .showPort == (decide (k = .driveLost) || decide (k = .driveFault)))

/-- A notice about the drive is placed after those on the PLANT port, and after those on the SHOW port. -/
theorem State.raise_placed {k : NoticeKind} (clock : t.clock = s.clock) (about : k.aboutDrive = true) (n : Nat) {m m' : MasterPort}
    (plant : t.mpPlant = s.placed i ns m) (shown : t.mpShow = s.placed i (alsoToShow ns) m') :
    (t.raise k i.val n).mpPlant = s.placed i (ns ++ [(k, n)]) m ∧
      (t.raise k i.val n).mpShow = s.placed i (alsoToShow (ns ++ [(k, n)])) m' := by
  obtain ⟨toPlant, toShow⟩ := Bool.and_eq_true_iff.mp about
  constructor
  · rw [State.placed_append, ← plant, ← clock]
    exact if_pos toPlant
  · have filtered : alsoToShow (ns ++ [(k, n)]) = alsoToShow ns ++ if k.raisedTo .showPort then [(k, n)] else [] := by
      rw [eq_of_beq toShow, alsoToShow, List.filter_append, List.filter_cons, List.filter_nil]
      rfl
    show (if k.raisedTo .showPort then _ else _) = _
    rw [filtered]
    split
    · rw [State.placed_append, ← shown, ← clock]
    · rw [List.append_nil, shown]

theorem State.DriveChanged.raise (h : s.DriveChanged t i d q ns) (clock : t.clock = s.clock) {k : NoticeKind}
    (about : k.aboutDrive = true) (n : Nat) : s.DriveChanged (t.raise k i.val n) i d q (ns ++ [(k, n)]) := by
  obtain ⟨record, pumps, total, budget, shown, m, tested, plant⟩ := h
  obtain ⟨onPlant, onShow⟩ := State.raise_placed clock about n plant shown
  exact ⟨record, pumps, total, budget, onShow, m, tested, onPlant⟩

/-- A drive record replaced with nothing reported. -/
theorem State.withDrive_driveKept (s : State) (i : Pump) (d : DriveRecord) : s.DriveKept (s.withDrive i d) i d [] :=
  ⟨s.withDrive_self i d, rfl, rfl, rfl⟩

theorem State.DriveKept.raise (h : s.DriveKept t i d ns) (clock : t.clock = s.clock) {k : NoticeKind}
    (about : k.aboutDrive = true) (n : Nat) : s.DriveKept (t.raise k i.val n) i d (ns ++ [(k, n)]) := by
  obtain ⟨record, pgv, plant, shown⟩ := h
  obtain ⟨onPlant, onShow⟩ := State.raise_placed clock about n plant shown
  exact ⟨record, pgv, onPlant, onShow⟩

end reports

/-! ## The body of a drive request (R132–R134) -/

theorem pumpOf_ofNat (i : Pump) : pumpOf (BitVec.ofNat 8 i.val).toNat = some i := by
  have index : (BitVec.ofNat 8 i.val).toNat = i.val := by
    rw [BitVec.toNat_ofNat]
    omega
  rw [index, pumpOf, dif_pos i.isLt]

theorem State.driveBody_eq {s : State} {i : Pump} {d : DriveRecord} (record : s.dlc[i] = d) :
    s.driveBody i = bytes 1 (if d.present then 1 else 0) ++ bytes 1 d.power.code := by
  rw [State.driveBody, record]
  rfl

section requests

variable {s t : State} {i : Pump} {tag b : Byte} {r : Result} {reply : List Byte} {c : Instr} {e : DriveRecord}

/-! ## DRIVE_CLEAR and the power deadline (R134, R137) -/

theorem DriveRecord.clearFramed_iff (d : DriveRecord) :
    d.clearFramed = true ↔ ∃ time prior, d.pending = some ⟨.clear, time, prior, true⟩ := by
  unfold DriveRecord.clearFramed
  cases pending : d.pending with
  | none => simp
  | some p =>
    obtain ⟨command, time, prior, framed⟩ := p
    simp

theorem driveClearRequest_faulted (present : s.dlc[i].present = true) (fault : s.dlc[i].power = .fault) :
    driveClearRequest [BitVec.ofNat 8 i.val] s =
      (s.withDrive i { s.dlc[i] with pending := some ⟨.clear, s.clock.now, .fault, s.dlc[i].clearFramed⟩ }, .ok, [1, 5]) := by
  simp only [driveClearRequest, pumpOf_ofNat]
  rw [if_pos ⟨present, fault⟩, State.driveBody_eq (s.withDrive_self i _)]
  simp only [present, fault]
  rfl

theorem driveClearRequest_other (other : s.dlc[i].present = false ∨ s.dlc[i].power ≠ .fault) :
    driveClearRequest [BitVec.ofNat 8 i.val] s = (s, .ok, s.driveBody i) := by
  simp only [driveClearRequest, pumpOf_ofNat]
  refine if_neg fun ⟨present, fault⟩ => ?_
  rcases other with absent | running
  · exact absurd (present.symm.trans absent) nofun
  · exact running fault

theorem exec_powerDeadlineExpiry {d : Time} (deadline : s.dlc[i].deadline = some d)
    (power : s.dlc[i].power = .poweringUp ∨ s.dlc[i].power = .poweringDown) (due : reached s.now d = true) :
    exec (.powerDeadlineExpiry i) s = .next (s.powerTimeout i) := by
  have expired : s.powerExpired i = true := by
    simp only [State.powerExpired, deadline, due]
    rcases power with up | down
    · rw [up]; rfl
    · rw [down]; rfl
  show execPowerDeadlineExpiry i s = _
  rw [execPowerDeadlineExpiry, if_pos expired]

/-- A power deadline expired (R98, R137). -/
theorem State.powerTimeout_driveChanged (s : State) (i : Pump) : s.DriveChanged (s.powerTimeout i) i
    { s.dlc[i] with power := .fault, fault := some .powerTimeout, pending := none, deadline := none }
    { s.pgv.pumps[i] with commanded := 0, share := 0 } [(.driveFault, 256)] := by
  refine State.DriveChanged.raise (ns := []) ?_ (s.changeDrive_clock i _) rfl 256
  exact State.changeDrive_driveChanged (s.reportedPump_rest i nofun nofun nofun)

/-- Settles O49: DRIVE_CLEAR by its two equations, and the expiry as a change reported to the governor. -/
theorem clearsArePendingAndPowerDeadlinesExpire : Obligations.ClearsArePendingAndPowerDeadlinesExpire := by
  intro s i
  refine ⟨fun tag asked => ⟨fun framed mark present fault => ?_, fun other => ?_⟩, fun d deadline power past => ?_⟩
  · obtain rfl : s.dlc[i].clearFramed = framed := Bool.eq_iff_iff.mpr ((DriveRecord.clearFramed_iff _).trans mark.symm)
    exact .of_reply rfl asked (driveClearRequest_faulted present fault)
  · exact .of_reply rfl asked ((driveClearRequest_other other).trans (by rw [State.driveBody_eq rfl]))
  · have expiry := s.powerTimeout_onDrive i
    exact ⟨_, exec_powerDeadlineExpiry deadline power (decide_eq_true past),
      fun j other => ⟨expiry.drives j other, expiry.pumps j other⟩, s.powerTimeout_driveChanged i⟩

/-! ## DRIVE_POWER (R132, R133) -/

/-- DRIVE_POWER of drive `i` with request byte `b` is answered `r` with the presence and power state of the record `e`, which is the
drive's after it; every other drive record stays. -/
def State.ServesPower (s : State) (i : Pump) (tag : Byte) (c : Instr) (b : Byte) (r : Result) (e : DriveRecord) : Prop :=
  ∃ t, Answers c s .plantPort 0x32 tag [BitVec.ofNat 8 i.val, b] t r
      (bytes 1 (if e.present then 1 else 0) ++ bytes 1 e.power.code) ∧
    t.dlc[i] = e ∧ (∀ j : Pump, j ≠ i → t.dlc[j] = s.dlc[j]) ∧ (e = s.dlc[i] → t = s)

theorem State.ServesPower.of_kept (h : Answers c s .plantPort 0x32 tag [BitVec.ofNat 8 i.val, b] s r (s.driveBody i)) :
    s.ServesPower i tag c b r s.dlc[i] :=
  ⟨s, State.driveBody_eq (s := s) rfl ▸ h, rfl, fun _ _ => rfl, fun _ => rfl⟩

/-- A changed record is one with another power state. -/
theorem State.ServesPower.of_changed (h : Answers c s .plantPort 0x32 tag [BitVec.ofNat 8 i.val, b] (s.changeDrive i e) r
    ((s.changeDrive i e).driveBody i)) (moves : e.power ≠ s.dlc[i].power) : s.ServesPower i tag c b r e := by
  have record : (s.changeDrive i e).dlc[i] = e := by rw [State.changeDrive_drive, if_pos rfl]
  refine ⟨_, State.driveBody_eq record ▸ h, record, fun j other => ?_, fun same => absurd (same ▸ rfl) moves⟩
  rw [State.changeDrive_drive, if_neg (Ne.symm other)]

theorem drivePowerOn_answers (asked : s.InExecution .plantPort 0x32 tag [BitVec.ofNat 8 i.val, 1])
    (h : powerOnRequest i s = (t, r, reply)) :
    Answers .drivePowerOn s .plantPort 0x32 tag [BitVec.ofNat 8 i.val, 1] t r reply := by
  have taken : drivePowerRequest [BitVec.ofNat 8 i.val, 1] s = (t, r, reply) := by
    simp only [drivePowerRequest, pumpOf_ofNat, if_true, h]
  show execDrivePowerOn s = _
  rw [execDrivePowerOn, State.serveWhen_eq asked, taken, if_pos (by simp [asksForPower])]

theorem drivePowerOff_answers (asked : s.InExecution .plantPort 0x32 tag [BitVec.ofNat 8 i.val, 0])
    (h : powerOffRequest i s = (t, r, reply)) :
    Answers .drivePowerOff s .plantPort 0x32 tag [BitVec.ofNat 8 i.val, 0] t r reply := by
  have taken : drivePowerRequest [BitVec.ofNat 8 i.val, 0] s = (t, r, reply) := by
    simp only [drivePowerRequest, pumpOf_ofNat, h]
    rfl
  show execDrivePowerOff s = _
  rw [execDrivePowerOff, State.serveWhen_eq asked, taken, if_pos (by simp [asksForPower])]

theorem powerOnRequest_absent (absent : s.dlc[i].present = false) : powerOnRequest i s = (s, .driveAbsent, s.driveBody i) :=
  if_pos absent

theorem powerOnRequest_locked (present : s.dlc[i].present = true) (held : s.heldOff i = true) :
    powerOnRequest i s = (s, .channelLocked, s.driveBody i) := by
  rw [powerOnRequest, if_neg (by rw [present]; nofun), if_pos held]

theorem powerOnRequest_faulted (present : s.dlc[i].present = true) (free : s.heldOff i = false) (fault : s.dlc[i].power = .fault) :
    powerOnRequest i s = (s, .driveFaulted, s.driveBody i) := by
  rw [powerOnRequest, if_neg (by rw [present]; nofun), if_neg (by rw [free]; nofun), if_pos fault]

theorem powerOnRequest_taken (present : s.dlc[i].present = true) (free : s.heldOff i = false) (running : s.dlc[i].power ≠ .fault)
    (taken : s.takePowerOn i = t) : powerOnRequest i s = (t, .ok, t.driveBody i) := by
  rw [powerOnRequest, if_neg (by rw [present]; nofun), if_neg (by rw [free]; nofun), if_neg running, taken]

theorem powerOffRequest_absent (absent : s.dlc[i].present = false) : powerOffRequest i s = (s, .driveAbsent, s.driveBody i) :=
  if_pos absent

theorem powerOffRequest_taken (present : s.dlc[i].present = true) (taken : s.takePowerOff i = t) :
    powerOffRequest i s = (t, .ok, t.driveBody i) := by
  rw [powerOffRequest, if_neg (by rw [present]; nofun), taken]

end requests

/-- Settles O48: each case of the record is one equation of the request for on or for off. -/
theorem drivePowerFollowsTheDriveRecord : Obligations.DrivePowerFollowsTheDriveRecord := by
  rintro s tag i _ rfl Takes takes
  obtain rfl : Takes = s.ServesPower i tag := by
    funext c b r e
    exact propext (takes c b r e)
  refine ⟨fun asked => ⟨fun absent => ?_, fun present held => ?_, fun present free => ?_⟩,
    fun asked => ⟨fun absent => ?_, fun present => ?_⟩⟩
  · exact .of_kept (drivePowerOn_answers asked (powerOnRequest_absent absent))
  · exact .of_kept (drivePowerOn_answers asked (powerOnRequest_locked present held))
  · have kept (power : s.dlc[i].power ≠ .fault) (taken : s.takePowerOn i = s) :
        s.ServesPower i tag .drivePowerOn 1 .ok s.dlc[i] :=
      .of_kept (drivePowerOn_answers asked (powerOnRequest_taken present free power taken))
    have changed {e : DriveRecord} (power : s.dlc[i].power ≠ .fault) (taken : s.takePowerOn i = s.changeDrive i e)
        (moves : e.power ≠ s.dlc[i].power) : s.ServesPower i tag .drivePowerOn 1 .ok e :=
      .of_changed (drivePowerOn_answers asked (powerOnRequest_taken present free power taken)) moves
    refine ⟨fun fault => ?_, fun off => ?_, fun running => ?_, fun down => ⟨fun time framed pending => ?_,
      fun time framed pending => ?_, fun time prior framed priors pending => ?_, fun pending => ?_⟩⟩
    · exact .of_kept (drivePowerOn_answers asked (powerOnRequest_faulted present free fault))
    · exact changed (by rw [off]; nofun) (by simp only [State.takePowerOn, off]) (by rw [off]; nofun)
    · rcases running with power | power | power
      all_goals exact kept (by rw [power]; nofun) (by simp only [State.takePowerOn, power])
    all_goals refine changed (by rw [down]; nofun) ?_ (by rw [down]; nofun)
    · simp only [State.takePowerOn, down, pending]
    · simp only [State.takePowerOn, down, pending]
    · rcases priors with rfl | rfl
      all_goals simp only [State.takePowerOn, down, pending]
    · simp only [State.takePowerOn, down, pending]
  · exact .of_kept (drivePowerOff_answers asked (powerOffRequest_absent absent))
  · have changed {e : DriveRecord} (taken : s.takePowerOff i = s.changeDrive i e) (moves : e.power ≠ s.dlc[i].power) :
        s.ServesPower i tag .drivePowerOff 0 .ok e :=
      .of_changed (drivePowerOff_answers asked (powerOffRequest_taken present taken)) moves
    refine ⟨fun resting => ?_, fun on => ?_, fun p up pending => ?_, fun up pending => ?_⟩
    · refine .of_kept (drivePowerOff_answers asked (powerOffRequest_taken present ?_))
      rcases resting with power | power | power | power
      all_goals simp only [State.takePowerOff, power]
    · exact changed (by simp only [State.takePowerOff, on]) (by rw [on]; nofun)
    · exact changed (by simp only [State.takePowerOff, up, pending]) (by rw [up]; nofun)
    · exact changed (by simp only [State.takePowerOff, up, pending]) (by rw [up]; nofun)

end Sys2Proof.Machine
end

section
namespace Sys2Proof.Machine

/-! ## Which command an exchange has delivered (R131, R136) -/

section delivered

variable {d : DriveRecord} {f : DriveFrame} {c : DriveCommand}

/-- The frame of the exchange carried this command, and it is still pending. -/
def DriveRecord.Carries (d : DriveRecord) (f : DriveFrame) (c : DriveCommand) : Prop :=
  ∃ p, d.stillPending f = some p ∧ p.command = c

theorem DriveRecord.carries_iff :
    d.Carries f c ↔ (∃ time prior, d.pending = some ⟨c, time, prior, true⟩) ∧ f = c.frame := by
  constructor
  · rintro ⟨⟨_, time, prior, _⟩, still, rfl⟩
    obtain ⟨pending, rfl, frame⟩ := DriveRecord.stillPending_iff.mp still
    exact ⟨⟨time, prior, pending⟩, frame⟩
  · rintro ⟨⟨time, prior, pending⟩, frame⟩
    exact ⟨_, DriveRecord.stillPending_iff.mpr ⟨pending, rfl, frame⟩, rfl⟩

/-- The record without the command that the exchange has delivered (R129). -/
def DriveRecord.settled (d : DriveRecord) (f : DriveFrame) : DriveRecord :=
  match d.stillPending f with
  | some _ => { d with pending := none }
  | none => d

theorem DriveRecord.settled_carried (carried : d.Carries f c) : d.settled f = { d with pending := none } := by
  obtain ⟨p, still, -⟩ := carried
  rw [DriveRecord.settled, still]

theorem DriveRecord.settled_other (other : ∀ c, ¬ d.Carries f c) : d.settled f = d := by
  unfold DriveRecord.settled
  split
  · next p still => exact absurd ⟨p, still, rfl⟩ (other p.command)
  · rfl

/-- Settling leaves every field but the pending command. -/
theorem DriveRecord.settled_eq (d : DriveRecord) (f : DriveFrame) : ∃ p, d.settled f = { d with pending := p } := by
  unfold DriveRecord.settled
  split
  · exact ⟨none, rfl⟩
  · exact ⟨d.pending, rfl⟩

/-- The record of a drive that has answered with a STATE frame (R126). -/
def DriveRecord.answered (d : DriveRecord) (y : Telemetry) : DriveRecord := { d with misses := 0, telemetry := some y, age := 0 }

theorem DriveRecord.clearing_iff (d : DriveRecord) :
    d.clearing = true ↔ ∃ time prior framed, d.pending = some ⟨.clear, time, prior, framed⟩ := by
  unfold DriveRecord.clearing
  cases pending : d.pending with
  | none => simp
  | some p =>
    obtain ⟨command, time, prior, framed⟩ := p
    simp

theorem isTrip_iff (r : Reported) (t : Telemetry) : isTrip r t = true ↔ r = .tripped ∨ t.faultCode ≠ 0 := by
  simp [isTrip]

theorem isTrip_fine {r : Reported} {t : Telemetry} (state : r ≠ .tripped) (code : t.faultCode = 0) : isTrip r t = false :=
  Bool.eq_false_iff.mpr fun trip => ((isTrip_iff r t).mp trip).elim state fun fault => fault code

end delivered

section judgement

variable {s t : State} {i : Pump} {d e : DriveRecord} {q : PumpState} {ns : List (NoticeKind × Nat)} {f : DriveFrame}
  {r : Reported} {y : Telemetry}

/-! ## Records replaced more than once -/

theorem State.withDrive_same (s : State) (i : Pump) : s.withDrive i s.dlc[i] = s := by
  rw [State.withDrive, Fin.getElem_fin, Vector.set_getElem_self]
  rfl

theorem State.withDrive_withDrive (s : State) (i : Pump) (d e : DriveRecord) :
    (s.withDrive i d).withDrive i e = s.withDrive i e := by
  simp only [State.withDrive, State.withDlc_dlc, Vector.set_set]
  rfl

theorem State.driveReport_eq (s : State) (i : Pump) : s.driveReport i = s.changeDrive i s.dlc[i] := by
  rw [State.changeDrive, State.withDrive_same]

theorem State.DriveKept.refl (record : s.dlc[i] = d) : s.DriveKept s i d [] := ⟨record, rfl, rfl, rfl⟩

/-- A second report that gives the pump the values it has changes only the record (R112). -/
theorem State.DriveChanged.again (h : s.DriveChanged t i d q ns) (law : t.ExcessLaw) (pump : t.reportedPump i e = q) :
    s.DriveChanged (t.changeDrive i e) i e q ns := by
  obtain ⟨record, pumps, total, budget, shown, plant⟩ := h
  have set_again : t.pgv.pumps.set i q = t.pgv.pumps := by rw [pumps, Vector.set_set]
  have same : t.changeDrive i e = t.withDrive i e := by
    have pump_again : (t.withDrive i e).withPump i q = t.withDrive i e := by
      show (t.withDrive i e).withPgv { t.pgv with
        pumps := t.pgv.pumps.set i q, total := ledgerTotal (t.pgv.pumps.set i q) } = _
      rw [set_again, ← total]
      rfl
    rw [State.changeDrive_eq, pump, State.reported, pump_again]
    exact State.budgetTest_stays law
  rw [same]
  exact ⟨t.withDrive_self i e, pumps, total, budget, shown, plant⟩

/-! ## A drive judged as found (R100, R130) -/

/-- The values that the judgement of a drive as found gives its pump (R98, R100). -/
def State.foundPump (s : State) (i : Pump) (r : Reported) (y : Telemetry) (returning : Bool) : PumpState :=
  if isTrip r y = false ∧ r = .ready ∧ (0 < y.speed ∨ returning = true) then
    { s.pgv.pumps[i] with
      commanded := y.speed, share := powerAt s.tables.pumps[i].prated y.speed, lastCommand := s.clock.now }
  else { s.pgv.pumps[i] with commanded := 0, share := shareFor s.tables.pumps[i].prated (s.foundRecord i r y) 0 }

theorem State.takeFound_eq (s : State) (i : Pump) (r : Reported) (y : Telemetry) (returning : Bool) :
    s.takeFound i r y returning = s.reported i (s.foundRecord i r y) (s.foundPump i r y returning) := by
  unfold State.takeFound State.foundPump
  simp only
  split
  · rfl
  · simp only [State.driveReportAtRest, State.withDrive_self]
    rfl

theorem State.takeFound_driveChanged (s : State) (i : Pump) (r : Reported) (y : Telemetry) (returning : Bool) :
    s.DriveChanged (s.takeFound i r y returning) i (s.foundRecord i r y) (s.foundPump i r y returning) [] := by
  rw [State.takeFound_eq]
  exact s.reported_driveChanged ..

theorem State.takeFound_excessLaw (s : State) (i : Pump) (r : Reported) (y : Telemetry) (returning : Bool) :
    (s.takeFound i r y returning).ExcessLaw := by
  rw [State.takeFound_eq]
  exact State.budgetTest_excessLaw _

/-- What comes between the judgement of a found drive and its power-off: notices alone. -/
structure State.NoticedAs (s t : State) : Prop where
  excess : t.ExcessLaw
  clock : t.clock = s.clock
  cha : t.cha = s.cha
  tables : t.tables = s.tables

theorem State.takeFound_noticedAs (s : State) (i : Pump) (r : Reported) (y : Telemetry) (returning : Bool) :
    s.NoticedAs (s.takeFound i r y returning) :=
  have frame := s.takeFound_within i r y returning
  ⟨s.takeFound_excessLaw i r y returning, frame.same .clock (by decide), frame.same .cha (by decide),
    frame.same .tables (by decide)⟩

theorem State.NoticedAs.raise (h : s.NoticedAs t) (k : NoticeKind) (subject detail : Nat) :
    s.NoticedAs (t.raise k subject detail) := ⟨h.excess, h.clock, h.cha, h.tables⟩

theorem State.NoticedAs.heldOff (h : s.NoticedAs t) (i : Pump) : t.heldOff i = s.heldOff i := by
  rw [State.heldOff, h.cha]
  rfl

/-- A found drive that no lockout holds off, or that does not run, stays as it was found. -/
theorem State.DriveChanged.foundHeldOff_stays (h : s.DriveChanged t i d q ns) (noticed : s.NoticedAs t)
    (stays : s.heldOff i = false ∨ (d.power ≠ .on ∧ d.power ≠ .poweringUp)) :
    s.DriveChanged (t.foundHeldOff i) i d q ns := by
  have same : t.foundHeldOff i = t := by
    refine if_neg fun ⟨held, running⟩ => ?_
    rw [noticed.heldOff] at held
    rw [h.1] at running
    rcases stays with free | ⟨on, up⟩
    · exact absurd (held.symm.trans free) nofun
    · exact running.elim on up
  rw [same]
  exact h

/-- A found drive that runs on a held-off pump is powered off, and keeps the speed that was adopted (R98, R130, R133). -/
theorem State.DriveChanged.foundHeldOff_acts (h : s.DriveChanged t i d q ns) (noticed : s.NoticedAs t)
    (held : s.heldOff i = true) (running : d.power = .on ∨ d.power = .poweringUp) (pending : d.pending = none)
    (present : d.present = true) (share : q.share = powerAt s.tables.pumps[i].prated q.commanded) :
    s.DriveChanged (t.foundHeldOff i) i
      { d with power := .poweringDown, pending := some ⟨.powerOff, s.clock.now, d.power, false⟩ } q ns := by
  have record : t.dlc[i] = d := h.1
  have acts : t.foundHeldOff i = t.changeDrive i
      { d with power := .poweringDown, pending := some ⟨.powerOff, s.clock.now, d.power, false⟩ } := by
    rw [State.foundHeldOff, noticed.heldOff, record, if_pos ⟨held, running⟩, ← noticed.clock]
    rcases running with power | power
    all_goals simp only [State.takePowerOff, record, power, pending]
  have pump : t.pgv.pumps[i] = q := by rw [h.2.1, pumps_set, if_pos rfl]
  rw [acts]
  refine h.again noticed.excess ?_
  rw [State.reportedPump_governed t i (by simp [DriveRecord.governed, present]), pump, noticed.tables, ← share]

/-- The record of a tripped drive found, by the first row of the table of R130. -/
theorem State.foundRecord_trip (trip : isTrip r y = true) : s.foundRecord i r y = { s.dlc[i] with
    pending := none, deadline := none, power := .fault, fault := some (.trip (tripCode y)) } := if_pos trip

/-- The power state and the deadline of a found drive that has not tripped, by the other rows of the table of R130. -/
def State.foundAs (s : State) : Reported → Power × Option Time
  | .off => (.off, none)
  | .starting => (.poweringUp, some s.powerDeadline)
  | .ready => (.on, none)
  | .stopping => (.poweringDown, some s.powerDeadline)
  | .underLocal => (.underLocal, none)
  | .tripped => (.fault, none)

theorem State.foundRecord_fine (state : r ≠ .tripped) (code : y.faultCode = 0) : s.foundRecord i r y = { s.dlc[i] with
    pending := none, fault := none, power := (s.foundAs r).1, deadline := (s.foundAs r).2 } := by
  refine (if_neg (Bool.eq_false_iff.mp (isTrip_fine state code))).trans ?_
  cases r with
  | tripped => exact absurd rfl state
  | _ => rfl

/-- At speed 0 only a drive under local control has a share. -/
theorem shareFor_zero (locally : d.power ≠ .underLocal) (prated : Nat) : shareFor prated d 0 = 0 := by
  simp [shareFor, powerAt, locally]

theorem State.foundPump_rest (idle : isTrip r y = true ∨ r ≠ .ready) (locally : (s.foundRecord i r y).power ≠ .underLocal)
    (returning : Bool) : s.foundPump i r y returning = { s.pgv.pumps[i] with commanded := 0, share := 0 } := by
  rw [State.foundPump, if_neg, shareFor_zero locally]
  rintro ⟨fine, rfl, -⟩
  exact idle.elim (fun trip => absurd (trip.symm.trans fine) nofun) fun ready => ready rfl

theorem State.foundPump_ready (code : y.faultCode = 0) (returning : Bool) : s.foundPump i .ready y returning =
    if 0 < y.speed ∨ returning = true then
      { s.pgv.pumps[i] with
        commanded := y.speed, share := powerAt s.tables.pumps[i].prated y.speed, lastCommand := s.clock.now }
    else { s.pgv.pumps[i] with commanded := 0, share := 0 } := by
  have locally : (s.foundRecord i .ready y).power ≠ .underLocal := by
    rw [State.foundRecord_fine (r := .ready) nofun code]
    nofun
  rw [State.foundPump, shareFor_zero locally, isTrip_fine (r := .ready) nofun code]
  simp only [true_and]

theorem State.foundPump_local (present : s.dlc[i].present = true) (telemetry : s.dlc[i].telemetry = some y) (code : y.faultCode = 0)
    (returning : Bool) : s.foundPump i .underLocal y returning =
      { s.pgv.pumps[i] with commanded := 0, share := powerAt s.tables.pumps[i].prated y.speed } := by
  have share (prated : Nat) : shareFor prated (s.foundRecord i .underLocal y) 0 = powerAt prated y.speed := by
    rw [State.foundRecord_fine (r := .underLocal) nofun code]
    refine shareFor_local ?_ rfl ?_ prated 0
    · exact present
    · exact telemetry
  rw [State.foundPump, if_neg nofun, share]

/-- A found drive with the notices about it and the power-off that a lockout calls for: the table of R130. -/
theorem State.foundHeldOff_driveFound (present : s.dlc[i].present = true) (telemetry : s.dlc[i].telemetry = some y)
    {returning : Bool} (h : s.DriveChanged t i (s.foundRecord i r y) (s.foundPump i r y returning) ns)
    (noticed : s.NoticedAs t) : s.DriveFound (t.foundHeldOff i) i s.dlc[i] r y returning ns := by
  have resting {e : DriveRecord} (record : s.foundRecord i r y = e) (idle : isTrip r y = true ∨ r ≠ .ready)
      (locally : e.power ≠ .underLocal) : s.DriveChanged t i e { s.pgv.pumps[i] with commanded := 0, share := 0 } ns := by
    subst record
    exact State.foundPump_rest idle locally returning ▸ h
  rintro e rest deadline rfl rfl rfl
  refine ⟨fun trip => ?_, fun code => ⟨?_, ?_, ?_, ?_, ?_, ?_⟩⟩
  · have trip : isTrip r y = true := (isTrip_iff r y).mpr trip
    have found := resting (State.foundRecord_trip trip) (.inl trip) nofun
    exact found.foundHeldOff_stays noticed (.inr ⟨nofun, nofun⟩)
  · rintro rfl
    have found := resting (State.foundRecord_fine nofun code) (.inr nofun) nofun
    exact found.foundHeldOff_stays noticed (.inr ⟨nofun, nofun⟩)
  · rintro rfl free
    have found := resting (State.foundRecord_fine nofun code) (.inr nofun) nofun
    exact found.foundHeldOff_stays noticed (.inl free)
  · rintro rfl held
    have found := resting (State.foundRecord_fine nofun code) (.inr nofun) nofun
    exact found.foundHeldOff_acts noticed held (.inr rfl) rfl present (by simp [powerAt])
  · rintro q rfl rfl
    rw [State.foundPump_ready code, State.foundRecord_fine (r := .ready) nofun code] at h
    refine ⟨fun free => h.foundHeldOff_stays noticed (.inl free), fun held => ?_⟩
    refine h.foundHeldOff_acts noticed held (.inl rfl) rfl present ?_
    split
    · rfl
    · simp [powerAt]
  · rintro rfl
    have found := resting (State.foundRecord_fine nofun code) (.inr nofun) nofun
    exact found.foundHeldOff_stays noticed (.inr ⟨nofun, nofun⟩)
  · rintro rfl
    rw [State.foundPump_local present telemetry code, State.foundRecord_fine (r := .underLocal) nofun code] at h
    exact h.foundHeldOff_stays noticed (.inr ⟨nofun, nofun⟩)

/-- A drive found without a probe: DRIVE_READY is raised if it is found ON (R126, R129, R130). -/
theorem State.found_driveFound (record : s.dlc[i] = d) (present : d.present = true) (telemetry : d.telemetry = some y)
    (state : r ≠ .tripped) (code : y.faultCode = 0) : s.DriveFound (s.found i r y) i d r y
      (d.power = .underLocal) (if r = .ready then [(.driveReady, y.speed)] else []) := by
  subst record
  have taken := s.takeFound_driveChanged i r y (s.dlc[i].power = .underLocal)
  have noticed := s.takeFound_noticedAs i r y (s.dlc[i].power = .underLocal)
  have on : (s.takeFound i r y (s.dlc[i].power = .underLocal)).dlc[i].power = .on ↔ r = .ready := by
    rw [State.takeFound_drive, State.foundRecord_fine state code]
    cases r <;> simp [State.foundAs]
  unfold State.found
  simp only [on]
  split
  · exact State.foundHeldOff_driveFound present telemetry (taken.raise noticed.clock rfl y.speed) (noticed.raise ..)
  · exact State.foundHeldOff_driveFound present telemetry taken noticed

/-- A probe answered by STATE (R130). -/
theorem State.probeAnswered_driveFound (s : State) (i : Pump) (r : Reported) (y : Telemetry) :
    s.DriveFound (s.probeAnswered i r y) i { s.dlc[i] with present := true, misses := 0, telemetry := some y, age := 0 } r y false
      ([(.driveFound, y.speed)] ++ if r = .tripped ∨ y.faultCode ≠ 0 then [(.driveFault, tripCode y)] else []) := by
  generalize probed : s.withDrive i { s.dlc[i] with present := true, misses := 0, telemetry := some y, age := 0 } = u
  have record : u.dlc[i] = { s.dlc[i] with present := true, misses := 0, telemetry := some y, age := 0 } := by
    rw [← probed, State.withDrive_self]
  have taken := (u.takeFound_driveChanged i r y false).raise (u.takeFound_noticedAs i r y false).clock
    (k := .driveFound) rfl y.speed
  have noticed := (u.takeFound_noticedAs i r y false).raise .driveFound i.val y.speed
  suffices found : u.DriveFound (s.probeAnswered i r y) i u.dlc[i] r y false
      ([(.driveFound, y.speed)] ++ if r = .tripped ∨ y.faultCode ≠ 0 then [(.driveFault, tripCode y)] else []) by
    rw [record] at found
    rw [← probed] at found
    exact found
  have present : u.dlc[i].present = true := by rw [record]
  have telemetry : u.dlc[i].telemetry = some y := by rw [record]
  simp only [State.probeAnswered, probed, ← isTrip_iff]
  split
  · exact State.foundHeldOff_driveFound present telemetry (taken.raise noticed.clock rfl (tripCode y)) (noticed.raise ..)
  · exact State.foundHeldOff_driveFound present telemetry taken noticed

/-! ## No good reply, and REFUSED (R125, R131) -/

/-- The third miss: the drive is lost, and DRIVE_LOST carries the speed it was commanded (R125). -/
theorem State.missReply_lost (third : 2 ≤ s.dlc[i].misses) : s.DriveChanged (s.missReply i) i { s.dlc[i] with
      present := false, power := .off, pending := none, deadline := none, fault := none, misses := 3 }
    { s.pgv.pumps[i] with commanded := 0, share := 0 } [(.driveLost, s.pgv.pumps[i].commanded)] := by
  have lost : s.missReply i = s.loseDrive i := if_neg (by omega)
  rw [lost]
  refine State.DriveChanged.raise (ns := []) ?_ (s.changeDrive_clock i _) rfl _
  exact State.changeDrive_driveChanged (s.reportedPump_rest i nofun nofun nofun)

theorem State.missReply_missed (early : s.dlc[i].misses < 2) :
    s.DriveKept (s.missReply i) i { s.dlc[i] with misses := s.dlc[i].misses + 1 } [] := by
  have missed : s.missReply i = s.withDrive i { s.dlc[i] with misses := s.dlc[i].misses + 1 } := if_pos (by omega)
  rw [missed]
  exact s.withDrive_driveKept i _

/-- REFUSED to a frame that delivers no command (R131). -/
theorem State.refusedReply_idle (idle : f.delivers = none) :
    s.DriveKept (s.refusedReply i f) i { s.dlc[i] with misses := 0 } [] := by
  unfold State.refusedReply
  rw [idle]
  exact s.withDrive_driveKept i _

/-- REFUSED to a command that is no longer pending (R131, R136). -/
theorem State.refusedReply_replaced {c : DriveCommand} (frame : f = c.frame) (replaced : ¬ s.dlc[i].Carries f c) :
    s.DriveKept (s.refusedReply i f) i { s.dlc[i] with misses := 0 } [(.driveRefused, c.refusedDetail)] := by
  unfold State.refusedReply
  simp only [(DriveFrame.delivers_iff f c).mpr frame]
  split
  · next p still =>
    refine absurd ⟨p, still, ?_⟩ replaced
    have carried := (DriveRecord.stillPending_iff.mp still).2.2
    exact Option.some.inj (((DriveFrame.delivers_iff f _).mpr carried).symm.trans ((DriveFrame.delivers_iff f c).mpr frame))
  · exact (s.withDrive_driveKept i _).raise rfl rfl _

/-- REFUSED to a command that is still pending: the drive returns to its prior state (R131). -/
theorem State.refusedReply_pending {c : DriveCommand} {time : Time} {prior : Power} (frame : f = c.frame)
    (pending : s.dlc[i].pending = some ⟨c, time, prior, true⟩) (record : d = { s.dlc[i] with
      misses := 0, pending := none, power := prior
      deadline := if prior = .off ∨ prior = .on ∨ prior = .fault then none else s.dlc[i].deadline })
    (pump : s.reportedPump i d = q) : s.DriveChanged (s.refusedReply i f) i d q [(.driveRefused, c.refusedDetail)] := by
  have still : ({ s.dlc[i] with misses := 0 } : DriveRecord).stillPending f = some ⟨c, time, prior, true⟩ :=
    DriveRecord.stillPending_iff.mpr ⟨pending, rfl, frame⟩
  have returned : d = { s.dlc[i] with
      misses := 0, pending := none, power := prior
      deadline := if refusalEndsDeadline prior then none else s.dlc[i].deadline } := by
    rw [record]
    cases prior <;> rfl
  unfold State.refusedReply
  simp only [(DriveFrame.delivers_iff f c).mpr frame, still]
  rw [← returned]
  exact (State.changeDrive_driveChanged pump).raise (s.changeDrive_clock i d) rfl _

/-! ## Trips and LOCAL (R127, R128) -/

section states

variable (record : s.dlc[i] = d)

include record

theorem State.trip_running (running : d.power ≠ .fault) (f : DriveFrame) (y : Telemetry) :
    s.DriveChanged (s.trip i f y) i { d with
      power := .fault, fault := some (.trip (tripCode y)), pending := none, deadline := none }
    { s.pgv.pumps[i] with commanded := 0, share := 0 } [(.driveFault, tripCode y)] := by
  subst record
  have tripped : s.trip i f y = (s.changeDrive i { s.dlc[i] with
      power := .fault, fault := some (.trip (tripCode y)), pending := none, deadline := none }).raise
        .driveFault i.val (tripCode y) := if_pos running
  rw [tripped]
  refine State.DriveChanged.raise (ns := []) ?_ (s.changeDrive_clock i _) rfl _
  exact State.changeDrive_driveChanged (s.reportedPump_rest i nofun nofun nofun)

/-- A trip in FAULT ends a CLEAR that the exchange has delivered, with DRIVE_FAULT afresh (R127). -/
theorem State.trip_clearing (fault : d.power = .fault) (carried : d.Carries f .clear) (y : Telemetry) :
    s.DriveKept (s.trip i f y) i { d with fault := some (.trip (tripCode y)), pending := none }
      [(.driveFault, tripCode y)] := by
  subst record
  obtain ⟨p, still, clear⟩ := carried
  unfold State.trip
  simp only [still]
  rw [if_neg (not_not_intro fault), if_pos clear]
  exact (s.withDrive_driveKept i _).raise rfl rfl _

theorem State.trip_again (fault : d.power = .fault) (other : ¬ d.Carries f .clear) (y : Telemetry) :
    s.DriveKept (s.trip i f y) i { d with fault := some (.trip (tripCode y)) } [] := by
  subst record
  have kept := s.withDrive_driveKept i { s.dlc[i] with fault := some (.trip (tripCode y)) }
  unfold State.trip
  simp only
  rw [if_neg (not_not_intro fault)]
  split
  · next p still =>
    rw [if_neg fun clear => other ⟨p, still, clear⟩]
    exact kept
  · exact kept

/-- A drive enters LOCAL (R128). -/
theorem State.localReply_enters (present : d.present = true) (telemetry : d.telemetry = some y) (remote : d.power ≠ .underLocal) :
    s.DriveChanged (s.localReply i) i { d with power := .underLocal, pending := none, deadline := none, fault := none }
      { s.pgv.pumps[i] with commanded := 0, share := powerAt s.tables.pumps[i].prated y.speed } [] := by
  subst record
  have entered : s.localReply i = s.changeDrive i { s.dlc[i] with
      power := .underLocal, pending := none, deadline := none, fault := none } := if_pos remote
  rw [entered]
  exact State.changeDrive_driveChanged (s.reportedPump_local i present rfl telemetry)

/-- New telemetry of a drive in LOCAL (R99, R128). -/
theorem State.localReply_stays (present : d.present = true) (telemetry : d.telemetry = some y) (locally : d.power = .underLocal) :
    s.DriveChanged (s.localReply i) i d
      { s.pgv.pumps[i] with commanded := 0, share := powerAt s.tables.pumps[i].prated y.speed } [] := by
  subst record
  have renewed : s.localReply i = s.driveReport i := if_neg (not_not_intro locally)
  rw [renewed, State.driveReport_eq]
  exact State.changeDrive_driveChanged (s.reportedPump_local i present locally telemetry)

/-! ## A delivered command, settled (R129) -/

theorem State.settleDelivered_quiet (quiet : d.fault = none ∨ r = .off ∨ ¬ d.Carries f .clear) :
    s.settleDelivered i f r = s.withDrive i (d.settled f) := by
  subst record
  unfold State.settleDelivered DriveRecord.settled
  cases still : s.dlc[i].stillPending f with
  | none =>
    simp only [still]
    exact (s.withDrive_same i).symm
  | some p =>
    simp only [still]
    split
    · next cause fault =>
      refine if_neg fun ⟨clear, left⟩ => ?_
      rcases quiet with none | off | other
      · exact absurd (none.symm.trans fault) nofun
      · exact left off
      · exact other ⟨p, still, clear⟩
    · rfl

/-- A CLEAR that the drive did not answer with OFF raises DRIVE_FAULT afresh (R129). -/
theorem State.settleDelivered_failed {cause : FaultCause} (fault : d.fault = some cause) (left : r ≠ .off)
    (carried : d.Carries f .clear) :
    s.settleDelivered i f r = (s.withDrive i (d.settled f)).raise .driveFault i.val cause.detail := by
  subst record
  obtain ⟨p, still, clear⟩ := carried
  unfold State.settleDelivered DriveRecord.settled
  simp only [still, fault]
  exact if_pos ⟨clear, left⟩

end states

/-! ## The table of R129 -/

section table

variable {clearing : Bool} (record : s.dlc[i] = d)

include record

theorem State.judgeState_off_found (power : d.power = .off) (found : r = .starting ∨ r = .ready) :
    s.judgeState i r y clearing = s.found i r y := by
  subst record
  rcases found with rfl | rfl
  all_goals simp only [State.judgeState, power]

theorem State.judgeState_up_ready (present : d.present = true) (power : d.power = .poweringUp) :
    s.DriveChanged (s.judgeState i .ready y clearing) i { d with power := .on, pending := none, deadline := none }
      { s.pgv.pumps[i] with share := powerAt s.tables.pumps[i].prated s.pgv.pumps[i].commanded } [(.driveReady, y.speed)] := by
  subst record
  simp only [State.judgeState, power]
  refine State.DriveChanged.raise (ns := []) ?_ (s.changeDrive_clock i _) rfl _
  exact State.changeDrive_driveChanged (s.reportedPump_governed i (by simp only [DriveRecord.governed, present]; rfl))

theorem State.judgeState_on_off (power : d.power = .on) :
    s.DriveChanged (s.judgeState i .off y clearing) i { d with power := .off, deadline := none }
      { s.pgv.pumps[i] with commanded := 0, share := 0 } [] := by
  subst record
  simp only [State.judgeState, power]
  exact State.changeDrive_driveChanged (s.reportedPump_rest i nofun nofun nofun)

theorem State.judgeState_on_stopping (present : d.present = true) (power : d.power = .on) :
    s.DriveChanged (s.judgeState i .stopping y clearing) i { d with power := .poweringDown, deadline := some s.powerDeadline }
      { s.pgv.pumps[i] with share := powerAt s.tables.pumps[i].prated s.pgv.pumps[i].commanded } [] := by
  subst record
  simp only [State.judgeState, power]
  exact State.changeDrive_driveChanged (s.reportedPump_governed i (by simp only [DriveRecord.governed, present]; rfl))

theorem State.judgeState_down_off (power : d.power = .poweringDown) :
    s.DriveChanged (s.judgeState i .off y clearing) i { d with power := .off, pending := none, deadline := none }
      { s.pgv.pumps[i] with commanded := 0, share := 0 } [] := by
  subst record
  simp only [State.judgeState, power]
  exact State.changeDrive_driveChanged (s.reportedPump_rest i nofun nofun nofun)

theorem State.judgeState_fault_cleared (power : d.power = .fault) :
    s.DriveChanged (s.judgeState i .off y true) i { d with power := .off, fault := none, pending := none, deadline := none }
      { s.pgv.pumps[i] with commanded := 0, share := 0 } [] := by
  subst record
  simp only [State.judgeState, power, if_true]
  exact State.changeDrive_driveChanged (s.reportedPump_rest i nofun nofun nofun)

/-- The pairs of power state and reported state in which the table changes nothing. -/
def stateKept (clearing : Bool) : Power → Reported → Bool
  | .off, r => r ≠ .starting && r ≠ .ready
  | .poweringUp, r => r ≠ .ready
  | .on, r => r ≠ .off && r ≠ .stopping
  | .poweringDown, r => r ≠ .off
  | .fault, r => r ≠ .off || !clearing
  | .underLocal, _ => true

theorem State.judgeState_kept (kept : stateKept clearing d.power r = true) : s.judgeState i r y clearing = s := by
  subst record
  unfold State.judgeState
  simp only
  split
  case h_8 => rfl
  case h_7 power =>
    rw [power] at kept
    exact if_neg fun clear => absurd (clear ▸ kept) nofun
  all_goals
    next power =>
      rw [power] at kept
      exact absurd kept nofun

end table

/-! ## A STATE reply (R126) -/

section stateReply

theorem State.stateReply_trip (trip : isTrip r y = true) (f : DriveFrame) :
    s.stateReply i f r y = (s.withDrive i (s.dlc[i].answered y)).trip i f y := if_pos trip

theorem State.stateReply_local (code : y.faultCode = 0) (f : DriveFrame) :
    s.stateReply i f .underLocal y = (s.withDrive i (s.dlc[i].answered y)).localReply i :=
  (if_neg (Bool.eq_false_iff.mp (isTrip_fine (r := .underLocal) nofun code))).trans (if_pos rfl)

variable (fine : isTrip r y = false) (remote : r ≠ .underLocal)

include fine remote

theorem State.stateReply_returns (locally : s.dlc[i].power = .underLocal) (f : DriveFrame) :
    s.stateReply i f r y = (s.withDrive i (s.dlc[i].answered y)).found i r y :=
  (if_neg (Bool.eq_false_iff.mp fine)).trans ((if_neg remote).trans (if_pos locally))

/-- What is left to the table of R129. -/
theorem State.stateReply_table (power : s.dlc[i].power ≠ .underLocal) (f : DriveFrame) : s.stateReply i f r y =
    ((s.withDrive i (s.dlc[i].answered y)).settleDelivered i f r).judgeState i r y s.dlc[i].clearing :=
  (if_neg (Bool.eq_false_iff.mp fine)).trans ((if_neg remote).trans (if_neg power))

theorem State.stateReply_judged (power : s.dlc[i].power ≠ .underLocal)
    (quiet : s.dlc[i].fault = none ∨ r = .off ∨ ¬ s.dlc[i].Carries f .clear) : s.stateReply i f r y =
      (s.withDrive i ((s.dlc[i].answered y).settled f)).judgeState i r y s.dlc[i].clearing := by
  rw [State.stateReply_table fine remote power,
    State.settleDelivered_quiet (d := s.dlc[i].answered y) (s.withDrive_self i _) quiet, State.withDrive_withDrive]

theorem State.stateReply_clear_failed {cause : FaultCause} (power : s.dlc[i].power = .fault) (fault : s.dlc[i].fault = some cause)
    (left : r ≠ .off) (carried : s.dlc[i].Carries f .clear) :
    s.DriveKept (s.stateReply i f r y) i ((s.dlc[i].answered y).settled f) [(.driveFault, cause.detail)] := by
  rw [State.stateReply_table fine remote (by rw [power]; nofun),
    State.settleDelivered_failed (d := s.dlc[i].answered y) (s.withDrive_self i _) fault left carried, State.withDrive_withDrive]
  have record : ((s.withDrive i ((s.dlc[i].answered y).settled f)).raise .driveFault i.val cause.detail).dlc[i] =
      (s.dlc[i].answered y).settled f := s.withDrive_self i _
  obtain ⟨p, settled⟩ := (s.dlc[i].answered y).settled_eq f
  rw [State.judgeState_kept record]
  · exact (s.withDrive_driveKept i _).raise rfl rfl _
  · have unmoved : ((s.dlc[i].answered y).settled f).power = .fault := by rw [settled]; exact power
    rw [unmoved]
    simp [stateKept, left]

end stateReply

/-! ## The completion of an exchange (R122) -/

theorem State.completeExchange_absent (absent : s.dlc[i].present = false) {good : Option ReplyKind}
    (other : good = none ∨ good = some .refused) : s.completeExchange i f good = s := by
  unfold State.completeExchange
  rcases other with rfl | rfl
  all_goals rw [absent]

theorem State.completeExchange_probed (absent : s.dlc[i].present = false) (x : Telemetry) :
    s.completeExchange i f (some (.state r x)) = s.probeAnswered i r (storedTelemetry x) := by
  simp only [State.completeExchange, absent]

theorem State.completeExchange_missed (present : s.dlc[i].present = true) : s.completeExchange i f none = s.missReply i := by
  simp only [State.completeExchange, present]

theorem State.completeExchange_refused (present : s.dlc[i].present = true) :
    s.completeExchange i f (some .refused) = s.refusedReply i f := by
  simp only [State.completeExchange, present]

theorem State.completeExchange_state (present : s.dlc[i].present = true) (x : Telemetry) :
    s.completeExchange i f (some (.state r x)) = s.stateReply i f r (storedTelemetry x) := by
  simp only [State.completeExchange, present]

theorem exec_exchangeCompletion {entry : LineEntry} {check : BitVec 16} (sending : s.fsc.drive = .sending entry (.drive i f check))
    (window : List ReplyFrame) : exec (.exchangeCompletion window) s =
      .next ((s.completeExchange i f (goodReply i window)).withLine .drive .free) := by
  show execExchangeCompletion window s = _
  rw [execExchangeCompletion, sending]

/-- The drive line becomes FREE after the judgement, which leaves what was judged. -/
theorem State.DriveKept.withLine (h : s.DriveKept t i d ns) {l : Line} {x : LineState} :
    s.DriveKept (t.withLine l x) i d ns := h

theorem State.DriveChanged.withLine (h : s.DriveChanged t i d q ns) {l : Line} {x : LineState} :
    s.DriveChanged (t.withLine l x) i d q ns := h

theorem State.DriveFound.withLine {returning : Bool} (h : s.DriveFound t i d r y returning ns) {l : Line} {x : LineState} :
    s.DriveFound (t.withLine l x) i d r y returning ns := h

/-- What a change starts from is the governor and the ports, not the record it replaces. -/
theorem State.DriveKept.of_withDrive (h : (s.withDrive i e).DriveKept t i d ns) : s.DriveKept t i d ns := h

theorem State.DriveChanged.of_withDrive (h : (s.withDrive i e).DriveChanged t i d q ns) : s.DriveChanged t i d q ns := h

theorem State.DriveFound.of_withDrive {returning : Bool} (h : (s.withDrive i e).DriveFound t i d r y returning ns) :
    s.DriveFound t i d r y returning ns := h

/-! ### The rows of the table, for an exchange that ends (R129) -/

section rows

variable {g : DriveRecord} (ends : t = (s.stateReply i f r y).withLine .drive .free)
  (settled : g = (s.dlc[i].answered y).settled f) (state : r ≠ .tripped) (remote : r ≠ .underLocal) (code : y.faultCode = 0)

include ends settled state remote code

/-- The exchange ends with the table's judgement of the settled record, but for a CLEAR that has failed. -/
theorem State.stateReply_ends (power : s.dlc[i].power ≠ .underLocal)
    (quiet : s.dlc[i].fault = none ∨ r = .off ∨ ¬ s.dlc[i].Carries f .clear) :
    g.power = s.dlc[i].power ∧ (s.withDrive i g).dlc[i] = g ∧
      t = ((s.withDrive i g).judgeState i r y s.dlc[i].clearing).withLine .drive .free := by
  obtain ⟨p, pending⟩ := (s.dlc[i].answered y).settled_eq f
  refine ⟨by rw [settled, pending]; rfl, s.withDrive_self i g, ?_⟩
  rw [ends, State.stateReply_judged (isTrip_fine state code) remote power quiet, settled]

/-- Where the table changes nothing the settled record stands. -/
theorem State.stateReply_kept (power : s.dlc[i].power ≠ .underLocal)
    (quiet : s.dlc[i].fault = none ∨ r = .off ∨ ¬ s.dlc[i].Carries f .clear)
    (kept : stateKept s.dlc[i].clearing s.dlc[i].power r = true) : s.DriveKept t i g [] := by
  obtain ⟨same, record, judged⟩ := State.stateReply_ends ends settled state remote code power quiet
  rw [judged, State.judgeState_kept record (same ▸ kept)]
  exact (s.withDrive_driveKept i g).withLine

theorem State.stateReply_off (present : s.dlc[i].present = true) (uncaused : s.dlc[i].fault = none) (power : s.dlc[i].power = .off) :
    (r = .off ∨ r = .stopping → s.DriveKept t i g []) ∧
    (r = .starting → s.DriveFound t i g r y false []) ∧
    (r = .ready → s.DriveFound t i g r y false [(.driveReady, y.speed)]) := by
  have other : s.dlc[i].power ≠ .underLocal := by rw [power]; nofun
  have found (runs : r = .starting ∨ r = .ready) :
      s.DriveFound t i g r y false (if r = .ready then [(.driveReady, y.speed)] else []) := by
    obtain ⟨same, record, judged⟩ := State.stateReply_ends ends settled state remote code other (.inl uncaused)
    obtain ⟨p, pending⟩ := (s.dlc[i].answered y).settled_eq f
    rw [judged, State.judgeState_off_found record (same.trans power) runs]
    have found := State.found_driveFound record (by rw [settled, pending]; exact present) (by rw [settled, pending]; rfl) state code
    rw [same.trans power] at found
    exact found.of_withDrive.withLine
  refine ⟨fun rests => State.stateReply_kept ends settled state remote code other (.inl uncaused) ?_, ?_, ?_⟩
  · rw [power]
    rcases rests with rfl | rfl <;> rfl
  · rintro rfl
    exact found (.inl rfl)
  · rintro rfl
    exact found (.inr rfl)

theorem State.stateReply_up (present : s.dlc[i].present = true) (uncaused : s.dlc[i].fault = none)
    (power : s.dlc[i].power = .poweringUp) :
    (r = .ready → s.DriveChanged t i { g with power := .on, pending := none, deadline := none }
      { s.pgv.pumps[i] with share := powerAt s.tables.pumps[i].prated s.pgv.pumps[i].commanded } [(.driveReady, y.speed)]) ∧
    (r ≠ .ready → s.DriveKept t i g []) := by
  have other : s.dlc[i].power ≠ .underLocal := by rw [power]; nofun
  refine ⟨?_, fun waits => State.stateReply_kept ends settled state remote code other (.inl uncaused) ?_⟩
  · rintro rfl
    obtain ⟨same, record, judged⟩ := State.stateReply_ends ends settled state remote code other (.inl uncaused)
    obtain ⟨p, pending⟩ := (s.dlc[i].answered y).settled_eq f
    rw [judged]
    exact (State.judgeState_up_ready record (by rw [settled, pending]; exact present) (same.trans power)).of_withDrive.withLine
  · rw [power]
    exact decide_eq_true waits

theorem State.stateReply_on (present : s.dlc[i].present = true) (uncaused : s.dlc[i].fault = none) (power : s.dlc[i].power = .on) :
    (r = .off → s.DriveChanged t i { g with power := .off, deadline := none }
      { s.pgv.pumps[i] with commanded := 0, share := 0 } []) ∧
    (r = .stopping → s.DriveChanged t i { g with power := .poweringDown, deadline := some s.powerDeadline }
      { s.pgv.pumps[i] with share := powerAt s.tables.pumps[i].prated s.pgv.pumps[i].commanded } []) ∧
    (r = .starting ∨ r = .ready → s.DriveKept t i g []) := by
  have other : s.dlc[i].power ≠ .underLocal := by rw [power]; nofun
  obtain ⟨same, record, judged⟩ := State.stateReply_ends ends settled state remote code other (.inl uncaused)
  obtain ⟨p, pending⟩ := (s.dlc[i].answered y).settled_eq f
  refine ⟨?_, ?_, fun runs => State.stateReply_kept ends settled state remote code other (.inl uncaused) ?_⟩
  · rintro rfl
    rw [judged]
    exact (State.judgeState_on_off record (same.trans power)).of_withDrive.withLine
  · rintro rfl
    rw [judged]
    exact (State.judgeState_on_stopping record (by rw [settled, pending]; exact present) (same.trans power)).of_withDrive.withLine
  · rw [power]
    rcases runs with rfl | rfl <;> rfl

theorem State.stateReply_down (uncaused : s.dlc[i].fault = none) (power : s.dlc[i].power = .poweringDown) :
    (r = .off → s.DriveChanged t i { g with power := .off, pending := none, deadline := none }
      { s.pgv.pumps[i] with commanded := 0, share := 0 } []) ∧
    (r ≠ .off → s.DriveKept t i g []) := by
  have other : s.dlc[i].power ≠ .underLocal := by rw [power]; nofun
  refine ⟨?_, fun waits => State.stateReply_kept ends settled state remote code other (.inl uncaused) ?_⟩
  · rintro rfl
    obtain ⟨same, record, judged⟩ := State.stateReply_ends ends settled state remote code other (.inl uncaused)
    rw [judged]
    exact (State.judgeState_down_off record (same.trans power)).of_withDrive.withLine
  · rw [power]
    exact decide_eq_true waits

theorem State.stateReply_fault {cause : FaultCause} (power : s.dlc[i].power = .fault) (fault : s.dlc[i].fault = some cause) :
    (r = .off → s.dlc[i].clearing = true →
      s.DriveChanged t i { g with power := .off, fault := none, pending := none, deadline := none }
        { s.pgv.pumps[i] with commanded := 0, share := 0 } []) ∧
    (r = .off → s.dlc[i].clearing = false → s.DriveKept t i g []) ∧
    (r ≠ .off → s.dlc[i].Carries f .clear → s.DriveKept t i g [(.driveFault, cause.detail)]) ∧
    (r ≠ .off → ¬ s.dlc[i].Carries f .clear → s.DriveKept t i g []) := by
  have other : s.dlc[i].power ≠ .underLocal := by rw [power]; nofun
  refine ⟨fun off clearing => ?_, fun off clearing => ?_, fun left carried => ?_, fun left replaced => ?_⟩
  · obtain ⟨same, record, judged⟩ := State.stateReply_ends ends settled state remote code other (.inr (.inl off))
    rw [judged, off, clearing]
    exact (State.judgeState_fault_cleared record (same.trans power)).of_withDrive.withLine
  · refine State.stateReply_kept ends settled state remote code other (.inr (.inl off)) ?_
    rw [power, off, clearing]
    rfl
  · rw [ends, settled]
    exact (State.stateReply_clear_failed (isTrip_fine state code) remote power fault left carried).withLine
  · refine State.stateReply_kept ends settled state remote code other (.inr (.inr replaced)) ?_
    rw [power]
    simp [stateKept, left]

end rows

end judgement

/-- Settles O50: the window's first frame gives the judgement, and each clause is one case of it. -/
theorem exchangesAreJudgedAtTheirCompletion : Obligations.ExchangesAreJudgedAtTheirCompletion := by
  rintro s i entry f check window sending _ _ _ Reply NoGoodReply Carried rfl rfl rfl reply noReply carried
  have delivered (c : DriveCommand) : Carried c ↔ s.dlc[i].Carries f c := by
    rw [carried, DriveRecord.carries_iff]
    cases c <;> rfl
  have replied {k : ReplyKind} (kind : k ≠ .other) (h : Reply k) : goodReply i window = some k := by
    obtain ⟨later, rfl⟩ := (reply k).mp h
    exact goodReply_eq_some i k later kind
  have missed (h : NoGoodReply) : goodReply i window = none := goodReply_eq_none i window (noReply.mp h)
  have exchange := s.completeExchange_onDrive i f (goodReply i window)
  have line : (s.completeExchange i f (goodReply i window)).fsc = s.fsc := (s.completeExchange_within ..).same .fsc (by decide)
  refine ⟨_, exec_exchangeCompletion sending window, congrArg (Fsc.withLine · .drive .free) line,
    fun j other => ⟨exchange.drives j other, exchange.pumps j other⟩, fun absent brings => ?_, fun present brings => ?_,
    fun present brings => ?_, ?_⟩
  · rw [State.completeExchange_absent absent (brings.imp missed (replied nofun))]
    exact (State.DriveKept.refl rfl).withLine
  · rw [missed brings, State.completeExchange_missed present]
    exact ⟨fun early => (State.missReply_missed early).withLine, fun third => (State.missReply_lost third).withLine⟩
  · rw [replied (k := .refused) nofun brings, State.completeExchange_refused present]
    refine ⟨fun idle => (State.refusedReply_idle ?_).withLine, fun c frame n detail => ?_⟩
    · rcases idle with ⟨n, rfl⟩ | rfl <;> rfl
    have frame : f = c.frame := by cases c <;> exact frame
    obtain rfl : n = c.refusedDetail := by cases c <;> exact detail
    refine ⟨fun replaced => (State.refusedReply_replaced frame (mt (delivered c).mpr replaced)).withLine,
      fun time prior e pending record => ⟨fun left => ?_, fun left => ?_⟩⟩
    · refine (State.refusedReply_pending frame pending record ?_).withLine
      subst record
      rcases left with rfl | rfl | rfl
      all_goals exact s.reportedPump_rest i nofun nofun nofun
    · refine (State.refusedReply_pending frame pending record ?_).withLine
      subst record
      refine s.reportedPump_governed i ?_
      rcases left with rfl | rfl
      all_goals simp only [DriveRecord.governed, present]; rfl
  intro r x y detail brings clamped coded
  have stored : storedTelemetry x = y := clamped.symm
  have fault : y.faultCode = x.faultCode := by rw [clamped]
  obtain rfl : tripCode y = detail := by rw [coded, tripCode, fault]
  rw [replied (k := .state r x) nofun brings]
  refine ⟨fun absent => ?_, ?_⟩
  · rw [State.completeExchange_probed absent, stored, ← fault]
    exact (s.probeAnswered_driveFound i r y).withLine
  intro h g answered emptied kept present
  have answered : s.dlc[i].answered y = h := answered.symm
  have record : (s.withDrive i h).dlc[i] = h := s.withDrive_self i h
  have here : h.present = true := answered ▸ present
  have held : h.telemetry = some y := answered ▸ rfl
  have power : h.power = s.dlc[i].power := answered ▸ rfl
  have carries (c : DriveCommand) : Carried c ↔ h.Carries f c := answered ▸ delivered c
  rw [State.completeExchange_state present, stored, ← fault]
  refine ⟨fun trip => ?_, fun code => ⟨fun q locally pump => ?_, fun trip locally left => ?_, fun trip locally cause => ?_⟩⟩
  · rw [State.stateReply_trip ((isTrip_iff r y).mpr trip), answered, ← power, carries]
    exact ⟨fun running => (State.trip_running record running f y).of_withDrive.withLine,
      fun fault clear => (State.trip_clearing record fault clear y).of_withDrive.withLine,
      fun fault other => (State.trip_again record fault other y).of_withDrive.withLine⟩
  · subst locally pump
    rw [State.stateReply_local code, answered, ← power]
    exact ⟨fun stays => (State.localReply_stays record here held stays).of_withDrive.withLine,
      fun enters => (State.localReply_enters record here held enters).of_withDrive.withLine⟩
  · rw [State.stateReply_returns (isTrip_fine trip code) locally left, answered]
    have found := State.found_driveFound record here held trip code
    rw [power, left] at found
    exact found.of_withDrive.withLine
  have settled : g = (s.dlc[i].answered y).settled f := by
    rw [answered]
    by_cases any : ∃ c, h.Carries f c
    · obtain ⟨c, carried⟩ := any
      rw [DriveRecord.settled_carried carried]
      refine emptied ?_
      have carried := (carries c).mpr carried
      cases c
      · exact .inl carried
      · exact .inr (.inl carried)
      · exact .inr (.inr carried)
    · have other (c : DriveCommand) : ¬ Carried c := fun carried => any ⟨c, (carries c).mp carried⟩
      rw [DriveRecord.settled_other (not_exists.mp any)]
      exact kept (other _) (other _) (other _)
  have uncaused (running : s.dlc[i].power ≠ .fault) : s.dlc[i].fault = none :=
    Option.not_isSome_iff_eq_none.mp (mt cause.mp running)
  refine ⟨fun off => ?_, fun up => ?_, fun on => ?_, fun down => ?_, fun cause fault caused => ?_⟩
  · exact State.stateReply_off rfl settled trip locally code present (uncaused (by rw [off]; nofun)) off
  · exact State.stateReply_up rfl settled trip locally code present (uncaused (by rw [up]; nofun)) up
  · exact State.stateReply_on rfl settled trip locally code present (uncaused (by rw [on]; nofun)) on
  · exact State.stateReply_down rfl settled trip locally code (uncaused (by rw [down]; nofun)) down
  · obtain ⟨cleared, faulted, failed, replaced⟩ := State.stateReply_fault rfl settled trip locally code fault caused
    refine ⟨fun off clear => cleared off ((DriveRecord.clearing_iff _).mpr clear), fun off other => faulted off ?_,
      fun left clear => ?_, fun left other => replaced left (mt (delivered .clear).mpr other)⟩
    · exact Bool.eq_false_iff.mpr fun clearing => by
        obtain ⟨time, prior, framed, pending⟩ := (DriveRecord.clearing_iff _).mp clearing
        exact other time prior framed pending
    · have failed := failed left ((delivered .clear).mp clear)
      cases cause <;> exact failed

end Sys2Proof.Machine
end

section
namespace Sys2Proof.Machine

/-! ## A stopped bank (R143) -/

/-- While an emergency stop is in effect, the hand-over of a bank raises no entry of the valve output table (R143). -/
theorem State.handValve_valves_le {s : State} (stopped : s.estop = true) (g : Gather) (j : Jet) :
    (s.handValve g).out.valves[j] ≤ s.out.valves[j] := by
  refine (overwrite_getD s.out.valves _ _ j 0).trans_le ?_
  split
  case isTrue written =>
    obtain ⟨low, high⟩ := written
    rw [s.limitedOutputs_getD _ _ low (by simpa using high), if_pos stopped]
    exact Nat.min_le_right ..
  case isFalse => exact le_rfl

/-- Of the frames of a group only a bank's writes the valve output table (R83, R143, R151). -/
theorem State.handGroup_valves (s : State) (g : Gather) :
    (s.handGroup g).out.valves = s.out.valves ∨ (s.handGroup g).out.valves = (s.handValve g).out.valves := by
  unfold State.handGroup
  split
  · exact .inl (congrArg Out.valves ((s.handPump_within g).same .out (by simp)))
  · split
    · exact .inr rfl
    · exact .inl rfl

theorem State.handGroup_valves_le {s : State} (stopped : s.estop = true) (g : Gather) (j : Jet) :
    (s.handGroup g).out.valves[j] ≤ s.out.valves[j] := by
  rcases s.handGroup_valves g with same | bank
  · rw [same]
  · rw [bank]
    exact State.handValve_valves_le stopped g j

/-- The hand-over of a line writes the output tables only by the complete frame of a group (R85, R88). -/
theorem exec_frameHandover_out {s t : State} {l : Line} (h : exec (.frameHandover l) s = .next t) :
    t.out = s.out ∨ ∃ g, t = s.handGroup g := by
  obtain rfl := Host.Outcome.next.inj h
  split
  next g _ =>
    split
    · exact .inr ⟨g, rfl⟩
    · exact .inl rfl
  next d f _ =>
    split
    · exact .inl ((s.handNull_within d f).same .out (by simp))
    · exact .inl rfl
  all_goals exact .inl rfl

/-- Cold reset shuts every jet (R194). -/
theorem State.coldReset_valves (s : State) (j : Jet) : s.coldReset.out.valves[j] = 0 := getElem_uniform _ j.val j.isLt

/-- The output tables are written by cold reset and by hand-overs alone. -/
theorem out_mem_writes {c : Instr} (h : Part.out ∈ writes c) : c = .coldReset ∨ ∃ l, c = .frameHandover l := by
  have port (p : Port) : Part.out ≠ portPart p := by cases p <;> decide
  cases c with
  | coldReset => exact .inl rfl
  | frameHandover l => exact .inr ⟨l, rfl⟩
  | _ => simp [writes, port] at h

/-- Settles O53: a hand-over takes the limit of the stop, cold reset shuts every jet, and no other command writes the table. -/
theorem noJetOutputRisesDuringAnEmergencyStop : Obligations.NoJetOutputRisesDuringAnEmergencyStop := by
  intro c s t stopped h j
  by_cases written : Part.out ∈ writes c
  · rcases out_mem_writes written with rfl | ⟨l, rfl⟩
    · obtain rfl := Host.Outcome.next.inj h
      rw [s.coldReset_valves j]
      exact Nat.zero_le _
    · rcases exec_frameHandover_out h with same | ⟨g, rfl⟩
      · rw [same]
      · exact State.handGroup_valves_le stopped g j
  · rw [show t.out = s.out from (exec_within h).same .out written]

/-! ## The answers to the third ask (R82, R141, R147) -/

/-- A jet's group is on the valve line (R1, R78). -/
theorem lineOf_groupOf_jet (j : Jet) : lineOf (groupOf (jetChannel j)) = .valve := by
  have group : (groupOf (jetChannel j)).val = 16 + j.val / 32 := by
    rw [groupOf, dif_neg (by simp [jetChannel]), dif_pos (by simp [jetChannel]; omega)]
    simp [jetChannel]
  exact (bank_geometry (by omega) (by omega)).1

theorem exec_valveAnswer {s : State} {j : Jet} {g : Gather} {v : Value} (handed : s.handedOn (jetChannel j) = some (g, v)) :
    exec (.valveAnswer j) s = .next (s.withLine .valve (.assembling (g.answered (.opening (s.valveOutput j v.toLevel))))) := by
  show execValveAnswer j s = _
  rw [execValveAnswer, handed, ← lineOf_groupOf_jet j]
  rfl

theorem exec_fixtureRendering {s : State} {f : Fixture} {g : Gather} {v : Value}
    (handed : s.handedOn (fixtureChannel f) = some (g, v)) : exec (.fixtureRendering f) s =
      .next (s.withLine (lineOf g.group) (.assembling (g.answered (.lamp (s.rendered f v.toColour))))) := by
  obtain ⟨-, group, -⟩ := State.gathering_eq (State.handedOn_eq handed).1
  show execFixtureRendering f s = _
  rw [execFixtureRendering, handed, group]
  rfl

/-! ## The valve and hold rules (R141, R142) -/

theorem DriveRecord.holdsJets_iff (d : DriveRecord) (mr : Nat) : d.holdsJets mr = true ↔
    ∃ x, d.present = true ∧ (d.power = .on ∨ d.power = .poweringDown ∨ d.power = .underLocal) ∧ d.telemetry = some x ∧
      mr ≤ x.speed := by
  unfold DriveRecord.holdsJets
  cases d.telemetry <;> simp [or_assoc, and_assoc]

theorem State.jetHolds_iff (s : State) (j : Jet) : s.jetHolds j = true ↔
    ∃ (i : Pump) (x : Telemetry), s.tables.jets[j].supply = some i ∧ s.dlc[i].present = true ∧
      (s.dlc[i].power = .on ∨ s.dlc[i].power = .poweringDown ∨ s.dlc[i].power = .underLocal) ∧
      s.dlc[i].telemetry = some x ∧ s.tables.pumps[i].mr ≤ x.speed := by
  unfold State.jetHolds
  cases s.tables.jets[j].supply <;> simp [DriveRecord.holdsJets_iff]

section valve

variable {s : State} {j : Jet} {n : Nat}

theorem State.valveOutput_holds (stopped : s.estop = true) (holds : s.jetHolds j = true) : s.valveOutput j n = s.out.valves[j] := by
  rw [State.valveOutput, if_pos stopped, if_pos holds]

theorem State.valveOutput_shuts (stopped : s.estop = true) (shuts : ¬ s.jetHolds j = true) : s.valveOutput j n = 0 := by
  rw [State.valveOutput, if_pos stopped, if_neg shuts]

theorem State.valveOutput_rule (free : s.estop = false) : s.valveOutput j n =
    valveRule s.tables.jets[j].mode (if s.cfg.state = .opened then s.tables.jets[j].rest else n) := by
  simp [State.valveOutput, free, State.configOpen]

end valve

/-! ## The renderer (R147–R150) -/

theorem State.renderInput_eq (s : State) (f : Fixture) (selected : Colour) : s.renderInput f selected =
    if s.estop then s.tables.fixtures[f].safety
    else if s.cfg.state = .opened then s.tables.fixtures[f].rest else selected := by
  simp [State.renderInput, State.configOpen]

theorem State.exposed_iff (s : State) (f : Fixture) : s.exposed f = true ↔
    ∃ depth, s.tables.fixtures[f].immersion = some depth ∧
      (s.plm.levelDeadline = none ∨ s.plm.basinLevel.getD 0 < depth) := by
  unfold State.exposed
  cases s.tables.fixtures[f].immersion <;> cases s.plm.levelDeadline <;> simp

section white

variable (c : Colour) (i : Nat)

/-- An RGBW fixture with WHITE AUTO: the part common to the three colours moves to the white (R149, R150). -/
theorem scaledBy_whiteHandling_auto : (whiteHandling .rgbw .auto c).scaledBy i =
    ⟨(c.r - min c.r (min c.g c.b)) * i / 255, (c.g - min c.r (min c.g c.b)) * i / 255,
      (c.b - min c.r (min c.g c.b)) * i / 255, min 255 (c.w + min c.r (min c.g c.b)) * i / 255⟩ := rfl

/-- An RGBW fixture with WHITE DIRECT (R149, R150). -/
theorem scaledBy_whiteHandling_direct : (whiteHandling .rgbw .direct c).scaledBy i =
    ⟨c.r * i / 255, c.g * i / 255, c.b * i / 255, c.w * i / 255⟩ := rfl

/-- An RGB fixture, in either mode: the white moves to the three colours (R149, R150). -/
theorem scaledBy_whiteHandling_rgb (m : WhiteMode) : (whiteHandling .rgb m c).scaledBy i =
    ⟨min 255 (c.r + c.w) * i / 255, min 255 (c.g + c.w) * i / 255, min 255 (c.b + c.w) * i / 255, 0⟩ := by
  simp [whiteHandling, Lamp.scaledBy]

end white

/-- Settles O52: the answer of each command, then the valve rule and the renderer by their rules. -/
theorem jetsAndFixturesAreAnswered : Obligations.JetsAndFixturesAreAnswered := by
  refine ⟨fun s j g v handed => ?_, fun s f g v handed e c capped entry colour cap => ?_⟩
  · refine ⟨_, exec_valveAnswer handed, fun stopped => ?_, fun input free chosen => ?_⟩
    · rw [← s.jetHolds_iff]
      exact ⟨State.valveOutput_holds stopped, State.valveOutput_shuts stopped⟩
    · rw [State.valveOutput_rule free, ← chosen]
      exact ⟨fun mode => by rw [mode]; rfl, fun mode => by rw [mode]; rfl⟩
  · have intensity : s.cappedIntensity f c.i = capped := by
      rw [cap, entry, State.cappedIntensity]
      exact if_congr (s.exposed_iff f) rfl rfl
    have lamp : s.rendered f v.toColour = (whiteHandling e.emitters e.white c).scaledBy capped := by
      rw [State.rendered, s.renderInput_eq, ← entry, ← colour, intensity]
    refine ⟨_, exec_fixtureRendering handed, fun emitters white => ?_, fun emitters white => ?_, fun emitters => ?_⟩
    · rw [lamp, emitters, white, scaledBy_whiteHandling_auto]
    · rw [lamp, emitters, white, scaledBy_whiteHandling_direct]
    · rw [lamp, emitters, scaledBy_whiteHandling_rgb]

end Sys2Proof.Machine
end

section
namespace Sys2Proof.Machine

/-! ## The parts of an entry into an emergency stop (R17, R73) -/

section entryParts

variable (s : State)

/-- Every claim and rejoin is removed and every lockout kept (R73). -/
theorem State.chaEstop_cha : s.chaEstop.cha = s.dropClaims.cha :=
  (State.Within.foldl (w := [.mpConsole]) (fun t (c : Channel) => t.raise_within .claimLost c.val 65535 (by decide))
    s.claimedChannels s.dropClaims).same .cha (by decide)

theorem State.dropClaims_record (c : Channel) : s.dropClaims.cha.records[c] = ⟨none, s.cha.records[c].lockout, none⟩ := by
  simp only [State.dropClaims, State.withCha_cha, Fin.getElem_fin, getElem_tabulate]

/-- CLAIM_LOST raised for the channels of a list reaches the CONSOLE port, in their order (R73, R181). -/
theorem State.foldl_raise_claimLost_mpConsole (l : List Channel) :
    (l.foldl (fun t c => t.raise .claimLost c.val 65535) s).mpConsole =
      l.foldl (fun m c => m.place ⟨.claimLost, c.val, 65535, s.clock.now⟩) s.mpConsole := by
  induction l generalizing s with
  | nil => rfl
  | cons c l ih => exact ih _

theorem State.chaEstop_mpConsole : s.chaEstop.mpConsole = s.claimedChannels.foldl
    (fun m c => m.place ⟨.claimLost, c.val, 65535, s.clock.now⟩) s.mpConsole :=
  State.foldl_raise_claimLost_mpConsole _ _

theorem State.seqEstop_seq : s.seqEstop.seq =
    if s.seq.showState = .unconfigured then s.seq else s.seq.become (s.seq.idleWith .estop) := by
  unfold State.seqEstop
  split
  · rfl
  · exact State.seqTake_seq ..

@[simp] theorem State.seqEstop_plu : s.seqEstop.plu = s.plu := s.seqEstop_within.same .plu (by decide)
@[simp] theorem State.seqEstop_cst : s.seqEstop.cst = s.cst := s.seqEstop_within.same .cst (by decide)
@[simp] theorem State.seqEstop_cha : s.seqEstop.cha = s.cha := s.seqEstop_within.same .cha (by decide)
@[simp] theorem State.seqEstop_plm : s.seqEstop.plm = s.plm := s.seqEstop_within.same .plm (by decide)
@[simp] theorem State.seqEstop_tables : s.seqEstop.tables = s.tables := s.seqEstop_within.same .tables (by decide)
@[simp] theorem State.seqEstop_clock : s.seqEstop.clock = s.clock := s.seqEstop_within.same .clock (by decide)

/-- SHOW_STATE is raised unless the show is UNCONFIGURED or already IDLE with idle cause ESTOP (R5, R17). -/
theorem State.seqEstop_port (p : Port) : s.seqEstop.port p =
    if s.seq.showState = .unconfigured ∨
        (s.seq.showState = .idle ∧ s.seq.holdCause = none ∧ s.seq.idleCause = .estop) then s.port p
    else (s.port p).place ⟨.showState, 0, s.plu.position, s.clock.now⟩ := by
  unfold State.seqEstop
  by_cases unconfigured : s.seq.showState = .unconfigured
  · rw [if_pos unconfigured, if_pos (.inl unconfigured)]
  · rw [if_neg unconfigured, State.seqTake_port]
    refine if_congr ?_ rfl rfl
    simp [Seq.shownFields, Seq.idleWith, unconfigured, eq_comm]

end entryParts

/-! ## The entry into an emergency stop (R167) -/

section entry

variable (s : State) (cause : EntryCause)

/-- An entry up to SEQ's part: the stop is in effect, ESTOP and SHOW_STATE have been raised. -/
def State.stopAnnounced (s : State) (cause : EntryCause) : State :=
  ((s.withPlm { s.plm with stop := some ⟨cause, s.now, 0⟩ }).raise .estop 0
    (match cause with | .line => 1 | .latch => 2)).seqEstop

theorem State.enterStop_eq : s.enterStop cause = (s.stopAnnounced cause).installRest.flushAudio.chaEstop := rfl

theorem State.stopAnnounced_port (p : Port) : (s.stopAnnounced cause).port p = s.stopNoticed cause (s.port p) := by
  have raised : NoticeKind.estop.raisedTo p = true := by cases p <;> rfl
  unfold State.stopAnnounced
  rw [State.seqEstop_port, State.raise_port, if_pos raised, State.withPlm_port]
  rfl

theorem State.enterStop_seq : (s.enterStop cause).seq =
    if s.seq.showState = .unconfigured then s.seq else s.seq.become (s.seq.idleWith .estop) := by
  rw [State.enterStop_eq, (State.chaEstop_within _).same .seq (by decide)]
  exact ((State.installRest_within _).same .seq (by decide)).trans (State.seqEstop_seq _)

theorem State.enterStop_plm : (s.enterStop cause).plm = { s.plm with stop := some ⟨cause, s.clock.now, 0⟩ } := by
  rw [State.enterStop_eq, (State.chaEstop_within _).same .plm (by decide)]
  exact ((State.installRest_within _).same .plm (by decide)).trans (State.seqEstop_plm _)

theorem State.enterStop_plu : (s.enterStop cause).plu = { s.plu with queue := [] } := by
  rw [State.enterStop_eq, (State.chaEstop_within _).same .plu (by decide)]
  have announced : (s.stopAnnounced cause).installRest.plu = s.plu :=
    ((State.installRest_within _).same .plu (by decide)).trans (State.seqEstop_plu _)
  rw [← announced]
  rfl

theorem State.enterStop_cst : (s.enterStop cause).cst = (s.stopAnnounced cause).installRest.cst := by
  rw [State.enterStop_eq, (State.chaEstop_within _).same .cst (by decide)]
  rfl

theorem State.enterStop_record (c : Channel) :
    (s.enterStop cause).cha.records[c] = ⟨none, s.cha.records[c].lockout, none⟩ := by
  have same : (s.stopAnnounced cause).installRest.flushAudio.cha = s.cha :=
    ((State.installRest_within _).same .cha (by decide)).trans (State.seqEstop_cha _)
  rw [State.enterStop_eq, State.chaEstop_cha, State.dropClaims_record, same]

/-- No claim is left (R73). -/
theorem State.enterStop_claimCount : (s.enterStop cause).cha.claimCount = 0 := by
  rw [State.enterStop_eq, State.chaEstop_cha]
  rfl

/-- One rest cue stands for each channel (R55). -/
theorem State.enterStop_list (c : Channel) : (s.enterStop cause).cst.lists[c] =
    [⟨s.plu.position / 48, 0, .step, s.tables.restValue c, .rest, .pending⟩] := by
  rw [State.enterStop_cst, State.installRest, State.installCues_lists, Fin.getElem_fin, getElem_tabulate]
  simp [State.stopAnnounced, State.showTime, Config.framesPerMs]

/-- The free-pool-low test of the rest cues follows ESTOP and SHOW_STATE on the SHOW port (R46). -/
theorem State.enterStop_poolTested : s.PoolTested (s.stopNoticed cause s.mpShow) 3760
    (s.enterStop cause).cst.poolLowArmed (s.enterStop cause).mpShow := by
  have tested := (s.stopAnnounced cause).installCues_tested .rest 0 .step
  rw [show (s.stopAnnounced cause).mpShow = _ from s.stopAnnounced_port cause .showPort] at tested
  have port : (s.enterStop cause).mpShow = (s.stopAnnounced cause).installRest.mpShow :=
    (State.chaEstop_within _).same .mpShow (by decide)
  rw [State.enterStop_cst, port]
  exact tested.congr (by simp [State.stopAnnounced]) (by simp [State.stopAnnounced]) (by simp [State.stopAnnounced])

theorem State.enterStop_mpPlant : (s.enterStop cause).mpPlant = s.stopNoticed cause s.mpPlant := by
  rw [State.enterStop_eq, (State.chaEstop_within _).same .mpPlant (by decide)]
  exact ((State.installRest_within _).same .mpPlant (by decide)).trans (s.stopAnnounced_port cause .plantPort)

/-- On the CONSOLE port CLAIM_LOST follows for every claim, in ascending channel order (R73). -/
theorem State.enterStop_mpConsole : (s.enterStop cause).mpConsole =
    ((List.finRange 336).filter fun c => s.cha.records[c].claim.isSome).foldl
      (fun m c => m.place ⟨.claimLost, c.val, 65535, s.clock.now⟩) (s.stopNoticed cause s.mpConsole) := by
  have within := State.installRest_within (s.stopAnnounced cause)
  have cha : (s.stopAnnounced cause).installRest.cha = s.cha := (within.same .cha (by decide)).trans (State.seqEstop_cha _)
  have clock : (s.stopAnnounced cause).installRest.clock = s.clock :=
    (within.same .clock (by decide)).trans (State.seqEstop_clock _)
  have port : (s.stopAnnounced cause).installRest.mpConsole = s.stopNoticed cause s.mpConsole :=
    (within.same .mpConsole (by decide)).trans (s.stopAnnounced_port cause .consolePort)
  rw [State.enterStop_eq, State.chaEstop_mpConsole, ← port, ← cha, ← clock]
  rfl

/-- The entry operation does what `State.StopEntered` says. -/
theorem State.enterStop_entered : s.StopEntered cause (s.enterStop cause) := by
  refine ⟨by rw [State.enterStop_plm], fun configured => ?_, fun unconfigured => ?_,
    fun c => ⟨s.enterStop_list cause c, s.enterStop_record cause c⟩, ?_, ?_, s.enterStop_plu cause,
    s.enterStop_claimCount cause, (s.enterStop_within cause).same .fsc (by decide), s.enterStop_mpPlant cause,
    s.enterStop_poolTested cause, s.enterStop_mpConsole cause⟩
  · rw [State.enterStop_seq, if_neg configured]
    simp [Seq.idleWith]
  · rw [State.enterStop_seq, if_pos unconfigured]
  · rw [State.enterStop_cst, State.installRest, State.installCues_free]
  · rw [State.enterStop_cst, State.installRest, State.installCues_shown]
    exact congrArg Cst.shown (State.seqEstop_cst _)

end entry

/-! ## The exit from an emergency stop (R75, R168) -/

section exit

variable (s : State)

/-- CHA's part of an exit: a channel with a lockout keeps it and gets no rejoin (R75). -/
theorem State.chaExit_locked {s : State} {c : Channel} {l : Lockout} (locked : s.cha.records[c].lockout = some l) :
    s.chaExit.cha.records[c] = ⟨none, some l, none⟩ := by
  simp only [State.chaExit, State.withCha_cha, Fin.getElem_fin, getElem_tabulate] at locked ⊢
  simp only [locked, Option.isSome_some, if_true]

theorem State.lastDriven_pump (i : Pump) : s.lastDriven (pumpChannel i) = .level s.pgv.pumps[i].commanded :=
  dif_pos i.isLt

theorem State.lastDriven_jet (j : Jet) : s.lastDriven (jetChannel j) = .level s.out.valves[j] := by
  rw [State.lastDriven, dif_neg (by simp [jetChannel]), dif_pos (by simp [jetChannel]; omega)]
  simp [jetChannel]

theorem State.lastDriven_fixture (f : Fixture) :
    s.lastDriven (fixtureChannel f) = .colour s.tables.fixtures[f].safety := by
  rw [State.lastDriven, dif_neg (by simp [fixtureChannel]; omega), dif_neg (by simp [fixtureChannel])]
  simp [fixtureChannel]

/-- What is handed on for a channel without a rejoin does not change at an exit. -/
theorem State.handOnRejoins_handedOn_of_none {s : State} {c : Channel} (still : s.cha.records[c].rejoin = none) :
    s.handOnRejoins.handedOn c = s.handedOn c := by
  rcases Nat.lt_or_ge c.val 16 with pump | other
  · exact s.handOnRejoins_pump pump
  · rw [s.handOnRejoins_handedOn other, still]
    cases handed : s.handedOn c with
    | none => rfl
    | some x =>
      obtain ⟨⟨group, answers, ask⟩, v⟩ := x
      obtain ⟨-, rfl⟩ := State.handedOn_eq handed
      rfl

/-- A value handed on for a jet or a fixture becomes the start of the channel's rejoin (R145, R153). -/
theorem State.handOnRejoins_handedOn_of_rejoin {s : State} {c : Channel} {r : Rejoin} {g : Gather} {w : Value}
    (rejoins : s.cha.records[c].rejoin = some r) (other : 16 ≤ c.val) (handed : s.handedOn c = some (g, w)) :
    s.handOnRejoins.handedOn c = some ({ g with ask := .answer r.fromValue }, r.fromValue) := by
  rw [s.handOnRejoins_handedOn other, handed, rejoins]
  rfl

theorem State.handOnRejoins_line_of_unanswered {l : Line}
    (unanswered : ∀ g v, s.fsc.line l = .assembling g → g.ask ≠ .answer v) :
    s.handOnRejoins.fsc.line l = s.fsc.line l := by
  by_cases drive : l = .drive
  · subst drive
    rfl
  · rw [s.handOnRejoins_line drive, LineState.rejoining_eq _ _ unanswered]

variable (e : StopEntry)

/-- An exit up to CHA's part: the stop is over, ESTOP_CLEAR has been raised, and the channels rejoin. -/
def State.stopRejoined (s : State) (e : StopEntry) : State :=
  ((s.withPlm { s.plm with stop := none }).raise .estopClear 0 e.length).chaExit

/-- FSC's part of an exit follows CHA's (R145, R153). -/
theorem State.leaveStop_eq : s.leaveStop e = (s.stopRejoined e).handOnRejoins := rfl

theorem State.leaveStop_plm : (s.leaveStop e).plm = { s.plm with stop := none } := rfl

theorem State.leaveStop_port (p : Port) :
    (s.leaveStop e).port p = (s.port p).place ⟨.estopClear, 0, e.length, s.clock.now⟩ := by cases p <;> rfl

/-- The record of a channel with a lockout, after an exit (R75). -/
theorem State.stopRejoined_locked {c : Channel} {l : Lockout} (locked : s.cha.records[c].lockout = some l) :
    (s.stopRejoined e).cha.records[c] = ⟨none, some l, none⟩ := State.chaExit_locked locked

/-- The record of a channel without a lockout, after an exit (R75). -/
theorem State.stopRejoined_unlocked {c : Channel} (unlocked : s.cha.records[c].lockout = none) :
    (s.stopRejoined e).cha.records[c] =
      ⟨none, none, some ⟨s.lastDriven c, s.clock.now, s.tables.limits.rejoinTime c⟩⟩ := State.chaExit_record unlocked

/-- The exit operation does what `State.StopLeft` says. -/
theorem State.leaveStop_left : s.StopLeft e (s.leaveStop e) := by
  refine ⟨rfl, rfl, rfl, rfl, rfl, s.leaveStop_port e, ⟨rfl, rfl, rfl, rfl⟩,
    fun l => State.handOnRejoins_line_of_unanswered (s.stopRejoined e) (l := l),
    fun c => ⟨fun l locked => ?_, fun unlocked => ?_⟩⟩
  all_goals rw [State.leaveStop_eq]
  · have record := s.stopRejoined_locked e locked
    exact ⟨record, State.handOnRejoins_handedOn_of_none (s := s.stopRejoined e) (by rw [record])⟩
  · have record := s.stopRejoined_unlocked e unlocked
    refine ⟨s.lastDriven c, record, ?_, ?_, ?_, ?_⟩
    · rintro i rfl
      exact ⟨s.lastDriven_pump i, State.handOnRejoins_pump _ i.isLt⟩
    · exact fun g w => State.handOnRejoins_handedOn_of_rejoin (s := s.stopRejoined e) (by rw [record])
    · rintro j rfl
      exact s.lastDriven_jet j
    · rintro f rfl
      exact s.lastDriven_fixture f

end exit

/-! ## The judgement of R163 -/

section judgement

variable {s : State} {cause : EntryCause}

theorem State.judgeStop_enters (clear : s.plm.stop = none) (called : (s.plm.lineActive || s.plm.latch) = true) :
    s.judgeStop cause = s.enterStop cause := by
  rw [State.judgeStop, clear]
  exact if_pos called

theorem State.judgeStop_leaves {e : StopEntry} (stopped : s.plm.stop = some e)
    (uncalled : (s.plm.lineActive || s.plm.latch) = false) : s.judgeStop cause = s.leaveStop e := by
  rw [State.judgeStop, stopped]
  exact if_neg (by rw [uncalled]; decide)

/-- A stop that is in effect exactly while it is called for stands (R163). -/
theorem State.judgeStop_stays (law : s.plm.StopLaw) : s.judgeStop cause = s := by
  unfold Plm.StopLaw at law
  unfold State.judgeStop
  split
  · rename_i clear
    rw [clear] at law
    exact if_neg (by rw [← law]; decide)
  · rename_i stopped
    rw [stopped] at law
    exact if_pos law.symm

/-- All that the judgement can do. -/
theorem State.judgeStop_cases (s : State) (cause : EntryCause) :
    (s.plm.StopLaw ∧ s.judgeStop cause = s) ∨
    ((s.plm.lineActive || s.plm.latch) = true ∧ s.judgeStop cause = s.enterStop cause) ∨
    ((s.plm.lineActive || s.plm.latch) = false ∧ ∃ e, s.judgeStop cause = s.leaveStop e) := by
  by_cases law : s.plm.StopLaw
  · exact .inl ⟨law, State.judgeStop_stays law⟩
  · cases stop : s.plm.stop with
    | none =>
      have called : (s.plm.lineActive || s.plm.latch) = true :=
        Bool.eq_true_of_not_eq_false fun off => law (by rw [Plm.StopLaw, stop, off]; rfl)
      exact .inr (.inl ⟨called, State.judgeStop_enters stop called⟩)
    | some e =>
      have uncalled : (s.plm.lineActive || s.plm.latch) = false :=
        Bool.eq_false_of_not_eq_true fun on => law (by rw [Plm.StopLaw, stop, on]; rfl)
      exact .inr (.inr ⟨uncalled, e, State.judgeStop_leaves stop uncalled⟩)

variable (s cause) (line latch : Bool) (debounce : Option Time)

/-- The line state, the latch and the debounce deadline replaced: what R162, R164 and R165 write before R163 judges. -/
def State.withCalls (s : State) (line latch : Bool) (debounce : Option Time) : State :=
  s.withPlm { s.plm with lineActive := line, latch := latch, debounce := debounce }

/-- The judgement of R163 after such a change. -/
def State.judgedWith (s : State) (line latch : Bool) (debounce : Option Time) (cause : EntryCause) : State :=
  (s.withCalls line latch debounce).judgeStop cause

/-- A judgement writes of PLM's record only whether the stop is in effect. -/
theorem State.judgeStop_plm : ∃ stop, (s.judgeStop cause).plm = { s.plm with stop := stop } := by
  rcases s.judgeStop_cases cause with ⟨-, same⟩ | ⟨-, enters⟩ | ⟨-, e, leaves⟩
  · exact ⟨s.plm.stop, by rw [same]⟩
  · exact ⟨_, by rw [enters, State.enterStop_plm]⟩
  · exact ⟨_, by rw [leaves, State.leaveStop_plm]⟩

theorem State.judgedWith_calls : (s.judgedWith line latch debounce cause).plm.lineActive = line ∧
    (s.judgedWith line latch debounce cause).plm.latch = latch ∧
    (s.judgedWith line latch debounce cause).plm.debounce = debounce := by
  obtain ⟨stop, plm⟩ := (s.withCalls line latch debounce).judgeStop_plm cause
  rw [State.judgedWith, plm]
  exact ⟨rfl, rfl, rfl⟩

/-- After the judgement the stop is in effect exactly while the line or the latch calls for it (R163). -/
theorem State.judgeStop_stopLaw : (s.judgeStop cause).plm.StopLaw := by
  rcases s.judgeStop_cases cause with ⟨law, same⟩ | ⟨called, enters⟩ | ⟨uncalled, e, leaves⟩
  · rwa [same]
  · rw [enters, State.enterStop_plm]
    exact called.symm
  · rw [leaves, State.leaveStop_plm]
    exact uncalled.symm

variable {s line latch}

theorem State.judgedWith_enters (clear : s.plm.stop = none) (called : (line || latch) = true) :
    s.StopEntered cause (s.judgedWith line latch debounce cause) := by
  rw [State.judgedWith, State.judgeStop_enters (s := s.withCalls line latch debounce) clear called]
  exact (s.withCalls line latch debounce).enterStop_entered cause

theorem State.judgedWith_leaves {e : StopEntry} (stopped : s.plm.stop = some e) (uncalled : (line || latch) = false) :
    s.StopLeft e (s.judgedWith line latch debounce cause) := by
  rw [State.judgedWith, State.judgeStop_leaves (s := s.withCalls line latch debounce) stopped uncalled]
  exact (s.withCalls line latch debounce).leaveStop_left e

theorem State.judgedWith_stays (law : s.plm.stop.isSome = (line || latch)) :
    s.judgedWith line latch debounce cause = s.withCalls line latch debounce := State.judgeStop_stays law

end judgement

/-! ## ESTOP, ESTOP_RESET and ESTOP_N (R162, R164–R166) -/

section events

variable (s : State)

/-- The response body after a judgement, of which the stop's own byte follows from the other two (R163–R165). -/
theorem State.judgedWith_stopBody (line latch : Bool) (debounce : Option Time) (cause : EntryCause) :
    (s.judgedWith line latch debounce cause).stopBody =
      [if line then 0 else 1, if latch then 1 else 0, if line || latch then 1 else 0] := by
  obtain ⟨line_, latch_, -⟩ := s.judgedWith_calls cause line latch debounce
  have stop := (s.withCalls line latch debounce).judgeStop_stopLaw cause
  rw [Plm.StopLaw, ← State.judgedWith, line_, latch_] at stop
  rw [State.stopBody, State.estop, line_, latch_, stop]
  cases line <;> cases latch <;> rfl

theorem estopRequest_eq : estopRequest s = (s.judgedWith s.plm.lineActive true s.plm.debounce .latch, .ok,
    [if s.plm.lineActive then 0 else 1, 1, 1]) := by
  have body := s.judgedWith_stopBody s.plm.lineActive true s.plm.debounce .latch
  rw [Bool.or_true] at body
  exact congrArg (fun b => (_, _, b)) body

theorem estopResetRequest_eq {active : Bool} (line : s.plm.lineActive = active) :
    estopResetRequest s = (s.judgedWith s.plm.lineActive false s.plm.debounce .latch, if active then .estopActive else .ok,
      [if active then 0 else 1, 0, if active then 1 else 0]) := by
  subst line
  obtain ⟨judged, -, -⟩ := s.judgedWith_calls .latch s.plm.lineActive false s.plm.debounce
  have body := s.judgedWith_stopBody s.plm.lineActive false s.plm.debounce .latch
  rw [Bool.or_false] at body
  show (_, if (s.judgedWith _ _ _ _).plm.lineActive then _ else _, (s.judgedWith _ _ _ _).stopBody) = _
  rw [judged, body]
  rfl

variable {s}

/-- A change of the raw level is judged against the line state (R162). -/
theorem exec_estopNChange {low : Bool} (released : s.clock.released = true) (changed : low ≠ s.plm.rawLow) :
    exec (.estopNChange low) s = .next (s.withPlm { s.plm with
      rawLow := low
      debounce := if low = s.plm.lineActive then none else some (s.clock.now + 10) }) := by
  show Host.Outcome.next (s.rawChange low) = _
  rw [State.rawChange, if_neg changed]
  exact congrArg _ (if_pos released)

/-- The release of RESET_N judges the raw level as it stands (R162). -/
theorem exec_resetNRelease (held : s.clock.released = false) :
    exec .resetNRelease s = .next ((s.withClock { s.clock with released := true }).withPlm { s.plm with
      debounce := if s.plm.rawLow = s.plm.lineActive then none else some (s.clock.now + 10) }) :=
  congrArg _ (if_neg (by rw [held]; decide))

/-- At the debounce deadline the raw level becomes the line state (R162). -/
theorem exec_debounceDeadlineExpiry {d : Time} (deadline : s.plm.debounce = some d) (due : reached s.now d = true)
    (differs : s.plm.rawLow ≠ s.plm.lineActive) :
    exec .debounceDeadlineExpiry s = .next (s.judgedWith s.plm.rawLow s.plm.latch none .line) := by
  refine congrArg _ (if_pos ?_)
  rw [State.debounced, deadline, deadlineReached, due, decide_eq_true differs]
  rfl

end events

/-- Settles O56: the latch, the line and the pin bring the calls for a stop, and the judgement of R163 enters it, leaves it or lets it
stand. -/
theorem theEmergencyStopIsEnteredAndLeft : Obligations.TheEmergencyStopIsEnteredAndLeft := by
  intro s tag
  refine ⟨fun h => ?_, fun h => ?_, fun low => exec_estopNChange, exec_resetNRelease, fun d deadline past differs => ?_⟩
  · obtain ⟨line, latch, -⟩ := s.judgedWith_calls .latch s.plm.lineActive true s.plm.debounce
    refine ⟨_, .of_bodiless rfl h (estopRequest_eq s), latch, line,
      fun clear => State.judgedWith_enters _ _ clear (Bool.or_true _), fun stopped => ?_⟩
    exact State.judgedWith_stays _ _ (by rw [Option.isSome_iff_ne_none.mpr stopped, Bool.or_true])
  · refine ⟨fun active stopped => ?_, fun inactive => ?_⟩
    · rw [show s.withPlm { s.plm with latch := false } = s.judgedWith s.plm.lineActive false s.plm.debounce .latch from
        (State.judgedWith_stays _ _ (by rw [Option.isSome_iff_ne_none.mpr stopped, active]; rfl)).symm]
      exact .of_bodiless rfl h (estopResetRequest_eq s active)
    · obtain ⟨-, latch, -⟩ := s.judgedWith_calls .latch s.plm.lineActive false s.plm.debounce
      exact ⟨_, .of_bodiless rfl h (estopResetRequest_eq s inactive), latch,
        fun clear => State.judgedWith_stays _ _ (by rw [clear, inactive]; rfl),
        fun e stopped => State.judgedWith_leaves _ _ stopped (by rw [inactive]; rfl)⟩
  · obtain ⟨line, latch, debounce⟩ := s.judgedWith_calls .line s.plm.rawLow s.plm.latch none
    refine ⟨_, exec_debounceDeadlineExpiry deadline (decide_eq_true past) differs, line, debounce, latch,
      fun clear low => State.judgedWith_enters _ _ clear (by rw [low]; rfl),
      fun e stopped high reset => State.judgedWith_leaves _ _ stopped (by rw [high, reset]; rfl), fun e stopped called => ?_⟩
    refine State.judgedWith_stays _ _ ?_
    rw [stopped]
    exact (Bool.or_eq_true_iff.mpr called).symm

end Sys2Proof.Machine
end

section
namespace Sys2Proof.Machine

/-! ## What every command keeps of a stop (R163, R168, R169) -/

section served

variable {P : State → Prop} {s t u : State} {p : Port} {kind : Byte}

/-- A property that answering keeps is kept by a request served when its owning block keeps it. -/
theorem keeps_of_served {take : List Byte → State → Reply}
    (answered : ∀ (u : State) p q r body, P u → P (u.answer p q r body)) (same : P s)
    (h : (.next (s.serve p kind take) : Host.Outcome State Fault Refusal) = .next t)
    (keeps : ∀ body, P (take body s).1) : P t := by
  obtain rfl := Host.Outcome.next.inj h
  exact State.serveWhen_keeps same fun _ _ _ _ => answered _ _ _ _ _ (keeps _)

/-- The same of a request without a body. -/
theorem keeps_of_bodiless {take : State → Reply}
    (answered : ∀ (u : State) p q r body, P u → P (u.answer p q r body)) (same : P s)
    (h : (.next (s.serve p kind (bodiless take)) : Host.Outcome State Fault Refusal) = .next t)
    (keeps : P (take s).1) : P t := by
  refine keeps_of_served answered same h fun body => ?_
  unfold bodiless
  split
  · exact keeps
  · exact same

theorem keeps_of_next (h : (.next u : Host.Outcome State Fault Refusal) = .next t) (keeps : P u) : P t :=
  Host.Outcome.next.inj h ▸ keeps

theorem keeps_when {c : Prop} [Decidable c] (same : P s) (keeps : c → P t) : P (if c then t else s) := by
  split
  · exact keeps ‹_›
  · exact same

/-- A list of channels keeps a property when every channel of it does. -/
theorem State.eachChannel_keeps {f : State → Tally → Channel → State × Tally} (keeps : ∀ s n c, P s → P (f s n c).1)
    (ns : List Nat) (same : P s) : P (s.eachChannel f ns).1 := by
  unfold State.eachChannel
  generalize Tally.zero = n
  induction ns generalizing s n with
  | nil => exact same
  | cons a ns ih =>
    refine ih (s := (perChannel f (s, n) a).1) ?_ (perChannel f (s, n) a).2
    unfold perChannel
    split
    · exact keeps _ _ _ same
    · exact same

end served

/-! ### The commands that R163 judges -/

/-- The commands that set or clear what calls for a stop, and then judge it (R162–R165). -/
def stopJudges : List Instr := [.estop, .estopReset, .debounceDeadlineExpiry]

/-- Such a command does nothing or judges changed calls, and answers. -/
theorem exec_stopJudges {P : State → Prop} {c : Instr} {s t : State} (judges : c ∈ stopJudges) (h : exec c s = .next t)
    (answered : ∀ (u : State) p q r body, P u → P (u.answer p q r body)) (same : P s)
    (judged : ∀ line latch debounce cause, P (s.judgedWith line latch debounce cause)) : P t := by
  simp only [stopJudges, List.mem_cons, List.not_mem_nil, or_false] at judges
  rcases judges with rfl | rfl | rfl
  · exact keeps_of_bodiless answered same h (judged s.plm.lineActive true s.plm.debounce .latch)
  · exact keeps_of_bodiless answered same h (judged s.plm.lineActive false s.plm.debounce .latch)
  · exact keeps_of_next h (keeps_when same fun _ => judged s.plm.rawLow s.plm.latch none .line)

/-! ### The record of the stop -/

/-- The stop, its calls and local time are the same in two states. -/
structure State.SameStop (s t : State) : Prop where
  stop : t.plm.stop = s.plm.stop
  line : t.plm.lineActive = s.plm.lineActive
  latch : t.plm.latch = s.plm.latch
  now : t.clock.now = s.clock.now

section sameStop

variable {s t u : State}

theorem State.SameStop.refl (s : State) : s.SameStop s := ⟨rfl, rfl, rfl, rfl⟩

theorem State.SameStop.of_within {w : List Part} (h : s.Within w t) (untouched : Part.plm ∉ w ∧ Part.clock ∉ w) :
    s.SameStop t := by
  have plm : t.plm = s.plm := h.same .plm untouched.1
  have clock : t.clock = s.clock := h.same .clock untouched.2
  exact ⟨by rw [plm], by rw [plm], by rw [plm], by rw [clock]⟩

theorem State.SameStop.next (h : s.SameStop t) (k : t.SameStop u) : s.SameStop u :=
  ⟨k.stop.trans h.stop, k.line.trans h.line, k.latch.trans h.latch, k.now.trans h.now⟩

theorem State.SameStop.answer (h : s.SameStop t) (p : Port) (q : Request) (r : Result) (body : List Byte) :
    s.SameStop (t.answer p q r body) := h.next ⟨by simp, by simp, by simp, by simp⟩

theorem State.SameStop.stopLaw (h : s.SameStop t) (law : s.plm.StopLaw) : t.plm.StopLaw := by
  rw [Plm.StopLaw, h.stop, h.line, h.latch]
  exact law

theorem State.SameStop.stopLengthLaw (h : s.SameStop t) (law : s.StopLengthLaw) : t.StopLengthLaw := by
  rw [State.StopLengthLaw, h.stop, h.now]
  exact law

theorem State.SameStop.estop (h : s.SameStop t) : t.estop = s.estop := congrArg Option.isSome h.stop

theorem State.lowWaterTest_sameStop (s : State) (n : Nat) : s.SameStop (s.lowWaterTest n) := by
  unfold State.lowWaterTest
  split
  · exact ⟨rfl, rfl, rfl, rfl⟩
  · split
    · exact ⟨rfl, rfl, rfl, rfl⟩
    · exact .refl s

theorem windRequest_sameStop (s : State) (body : List Byte) : s.SameStop (windRequest body s).1 := by
  unfold windRequest refuse
  split
  · exact .refl s
  · exact ⟨rfl, rfl, rfl, rfl⟩

theorem levelRequest_sameStop (s : State) (body : List Byte) : s.SameStop (levelRequest body s).1 := by
  by_cases length : body.length = 2
  · rw [levelRequest_accepted s length rfl rfl]
    exact State.SameStop.next (t := s.withLevel _) ⟨rfl, rfl, rfl, rfl⟩ (State.lowWaterTest_sameStop _ _)
  · rw [levelRequest_refused s length]
    exact .refl s

/-- The raw level and the debounce deadline alone call for nothing (R162). -/
theorem State.rawChange_sameStop (s : State) (low : Bool) : s.SameStop (s.rawChange low) := by
  unfold State.rawChange
  split
  · exact .refl s
  · simp only
    split <;> exact ⟨rfl, rfl, rfl, rfl⟩

theorem State.release_sameStop (s : State) : s.SameStop s.release := by
  unfold State.release
  split
  · exact .refl s
  · exact ⟨rfl, rfl, rfl, rfl⟩

theorem plm_clock_ne_portPart (p : Port) : Part.plm ≠ portPart p ∧ Part.clock ≠ portPart p := by cases p <;> decide

/-- Of the commands that judge no stop, only cold reset and the slot expiry touch the record of the stop or local time. -/
theorem exec_sameStop {c : Instr} (h : exec c s = .next t) (judges : c ∉ stopJudges) (cold : c ≠ .coldReset)
    (slot : c ≠ .slotExpiry) : s.SameStop t := by
  by_cases untouched : Part.plm ∉ writes c ∧ Part.clock ∉ writes c
  · exact .of_within (exec_within h) untouched
  have answered := fun (u : State) p q r body (k : s.SameStop u) => k.answer p q r body
  have same := State.SameStop.refl s
  cases c with
  | wind => exact keeps_of_served answered same h (windRequest_sameStop s)
  | level => exact keeps_of_served answered same h (levelRequest_sameStop s)
  | windDeadlineExpiry => exact keeps_of_next h (keeps_when same fun _ => ⟨rfl, rfl, rfl, rfl⟩)
  | levelDeadlineExpiry => exact keeps_of_next h (keeps_when same fun _ => ⟨rfl, rfl, rfl, rfl⟩)
  | estopNChange low => exact keeps_of_next h (s.rawChange_sameStop low)
  | resetNRelease => exact keeps_of_next h s.release_sameStop
  | coldReset => exact absurd rfl cold
  | slotExpiry => exact absurd rfl slot
  | estop | estopReset | debounceDeadlineExpiry => exact absurd (by decide) judges
  | _ => exact absurd (by simp [writes, plm_clock_ne_portPart]) untouched

end sameStop

/-! ### The length of a stop (R168) -/

section length

variable {s t : State}

/-- One millisecond of local time adds one to the length of a stop, which stays at the top (R168). -/
theorem State.tick_stopLengthLaw (law : s.StopLengthLaw) : s.tick.StopLengthLaw := by
  rcases Nat.lt_or_ge s.clock.expiries 2 with early | late
  · obtain ⟨clock, plm⟩ := s.tick_early early
    rw [State.StopLengthLaw, plm, clock]
    exact law
  · obtain ⟨clock, plm⟩ := s.tick_late late
    rw [State.StopLengthLaw, plm, clock]
    rintro _ stopped
    obtain ⟨e, stop, rfl⟩ := Option.map_eq_some_iff.mp stopped
    obtain ⟨-, counted⟩ := law e stop
    refine ⟨Nat.min_le_right .., fun short => ?_⟩
    dsimp only at short ⊢
    have length := counted (by omega)
    bv_omega

theorem State.slotExpiry_stopLengthLaw (law : s.StopLengthLaw) : s.slotExpiry.StopLengthLaw := by
  rw [State.StopLengthLaw, State.slotExpiry_plm, State.slotExpiry_clock]
  exact State.tick_stopLengthLaw law

/-- A stop begins at length 0 in the local time of its entry (R155, R168). -/
theorem State.judgeStop_stopLengthLaw (cause : EntryCause) (law : s.StopLengthLaw) :
    (s.judgeStop cause).StopLengthLaw := by
  rcases s.judgeStop_cases cause with ⟨-, same⟩ | ⟨-, enters⟩ | ⟨-, e, leaves⟩
  · rwa [same]
  · have clock : (s.enterStop cause).clock = s.clock := (s.enterStop_within cause).same .clock (by decide)
    rw [enters, State.StopLengthLaw, State.enterStop_plm, clock]
    rintro _ ⟨⟩
    simp
  · rw [leaves]
    exact nofun

theorem State.StopLengthLaw.answer (law : s.StopLengthLaw) (p : Port) (q : Request) (r : Result) (body : List Byte) :
    (s.answer p q r body).StopLengthLaw := ((State.SameStop.refl s).answer p q r body).stopLengthLaw law

theorem exec_stopLengthLaw {c : Instr} (h : exec c s = .next t) (law : s.StopLengthLaw) : t.StopLengthLaw := by
  by_cases judges : c ∈ stopJudges
  · exact exec_stopJudges judges h (fun _ p q r body law => law.answer p q r body) law fun line latch debounce cause =>
      State.judgeStop_stopLengthLaw (s := s.withCalls line latch debounce) cause law
  by_cases cold : c = .coldReset
  · subst cold
    exact keeps_of_next h nofun
  by_cases slot : c = .slotExpiry
  · subst slot
    exact keeps_of_next h (keeps_when law fun _ => State.slotExpiry_stopLengthLaw law)
  · exact (exec_sameStop h judges cold slot).stopLengthLaw law

end length

/-! ### R163 -/

section stopLaw

variable {s t : State}

/-- Local time does not end a stop (R163, R168). -/
theorem State.slotExpiry_stop (s : State) : s.slotExpiry.plm.stop.isSome = s.plm.stop.isSome ∧
    s.slotExpiry.plm.lineActive = s.plm.lineActive ∧ s.slotExpiry.plm.latch = s.plm.latch := by
  rw [State.slotExpiry_plm]
  rcases Nat.lt_or_ge s.clock.expiries 2 with early | late
  · rw [(s.tick_early early).2]
    exact ⟨rfl, rfl, rfl⟩
  · rw [(s.tick_late late).2]
    exact ⟨Option.isSome_map .., rfl, rfl⟩

theorem State.slotExpiry_stopLaw (law : s.plm.StopLaw) : s.slotExpiry.plm.StopLaw := by
  obtain ⟨stop, line, latch⟩ := s.slotExpiry_stop
  rw [Plm.StopLaw, stop, line, latch]
  exact law

theorem exec_stopLaw {c : Instr} (h : exec c s = .next t) (law : s.plm.StopLaw) : t.plm.StopLaw := by
  by_cases judges : c ∈ stopJudges
  · exact exec_stopJudges (P := fun s => s.plm.StopLaw) judges h
      (fun u p q r body law => ((State.SameStop.refl u).answer p q r body).stopLaw law) law
      fun line latch debounce cause => (s.withCalls line latch debounce).judgeStop_stopLaw cause
  by_cases cold : c = .coldReset
  · subst cold
    exact keeps_of_next (P := fun s => s.plm.StopLaw) h rfl
  by_cases slot : c = .slotExpiry
  · subst slot
    exact keeps_of_next (P := fun s => s.plm.StopLaw) h
      (keeps_when (P := fun s => s.plm.StopLaw) law fun _ => State.slotExpiry_stopLaw law)
  · exact (exec_sameStop h judges cold slot).stopLaw law

end stopLaw

/-! ### No show and no claim during a stop (R169) -/

/-- The show is IDLE or UNCONFIGURED. -/
def State.NoShow (s : State) : Prop := s.seq.showState = .idle ∨ s.seq.showState = .unconfigured

/-- No console claim exists. -/
def Cha.Unclaimed (x : Cha) : Prop := ∀ c : Channel, x.records[c].claim = none

theorem State.stoppedLaw_iff (s : State) : s.StoppedLaw ↔ (s.estop = true → s.NoShow ∧ s.cha.Unclaimed) := Iff.rfl

section noShow

variable {s t : State}

theorem State.noShow_of_seq (seq : t.seq = s.seq) (no : s.NoShow) : t.NoShow := by rwa [State.NoShow, seq]

theorem State.NoShow.answer (no : s.NoShow) (p : Port) (q : Request) (r : Result) (body : List Byte) :
    (s.answer p q r body).NoShow := State.noShow_of_seq (State.answer_seq ..) no

/-- ARM is refused during a stop (R6). -/
theorem armRequest_stopped (stopped : s.estop = true) (body : List Byte) : (armRequest body s).1 = s := by
  simp only [armRequest, stopped, if_true]
  split <;> rfl

/-- No block is taken during a stop (R23). -/
theorem audioBlockRequest_stopped (stopped : s.estop = true) (body : List Byte) : (audioBlockRequest body s).1 = s := by
  simp only [audioBlockRequest, stopped, if_true]
  split <;> rfl

/-- Without a show there is nothing to start, pause, resume or stop (R8, R11, R12, R14). -/
theorem startRequest_noShow (no : s.NoShow) : (startRequest s).1 = s := by
  rcases no with idle | unconfigured
  · simp only [startRequest, idle]
    split <;> rfl
  · simp only [startRequest, unconfigured]
    split <;> rfl

theorem pauseRequest_noShow (no : s.NoShow) : (pauseRequest s).1 = s := by
  rcases no with h | h
  all_goals
    simp only [pauseRequest, h]
    rfl

theorem resumeRequest_noShow (no : s.NoShow) : (resumeRequest s).1 = s := by
  rcases no with h | h
  all_goals
    simp only [resumeRequest, h]
    rfl

theorem stopRequest_noShow (no : s.NoShow) : (stopRequest s).1 = s := by
  rcases no with h | h
  · simp only [stopRequest, h]
  · simp only [stopRequest, h]
    rfl

theorem configOpenRequest_noShow (no : s.NoShow) (body : List Byte) : (configOpenRequest body s).1.NoShow := by
  unfold configOpenRequest
  split
  · exact no
  split
  · exact no
  split
  · exact no
  split
  · exact no
  · exact .inr (by simp [State.seqOpen])

theorem configCommitRequest_noShow (no : s.NoShow) : (configCommitRequest s).1.NoShow := by
  unfold configCommitRequest refuse
  split
  · exact no
  split
  · exact no
  · exact .inl (by simp [State.install_eq, State.seqCommit])

theorem State.restarted_noShow (s : State) : s.restarted.NoShow := by
  by_cases valid : s.cfg.state = .valid
  · exact .inl (by simp [Seq.restarted, valid])
  · exact .inr (by simp [Seq.restarted, valid])

/-- Nothing that SEQ was handed is due without a show (R13, R15, R16). -/
theorem State.NoShow.not_due (no : s.NoShow) : s.fadeDue = false ∧ s.endDue = false ∧ s.holdDue = false := by
  rcases no with h | h <;> simp [State.fadeDue, State.endDue, State.holdDue, h]

theorem State.settleSeq_noShow (no : s.NoShow) : s.settleSeq = s := by
  obtain ⟨fade, ended, hold⟩ := no.not_due
  simp [State.settleSeq, fade, ended, hold]

theorem State.outputFrame_noShow (no : s.NoShow) : s.outputFrame.NoShow := by
  have state : s.outputFrame.seq.showState = s.seq.showState := congrArg Prod.fst s.outputFrame_shownFields
  rwa [State.NoShow, state]

/-- During a stop no command but those that judge it begins a show. -/
theorem exec_noShow {c : Instr} (h : exec c s = .next t) (judges : c ∉ stopJudges) (stopped : s.estop = true)
    (no : s.NoShow) : t.NoShow := by
  by_cases untouched : Part.seq ∉ writes c
  · exact State.noShow_of_seq ((exec_within h).same .seq untouched) no
  have answered := fun (u : State) p q r body (k : u.NoShow) => k.answer p q r body
  obtain ⟨fade, ended, hold⟩ := no.not_due
  cases c with
  | coldReset => exact keeps_of_next h (.inr rfl)
  | arm => exact keeps_of_served answered no h fun body => by rwa [armRequest_stopped stopped]
  | start => exact keeps_of_bodiless answered no h (by rwa [startRequest_noShow no])
  | pause p => exact keeps_of_bodiless answered no h (by rwa [pauseRequest_noShow no])
  | resume p => exact keeps_of_bodiless answered no h (by rwa [resumeRequest_noShow no])
  | stop p => exact keeps_of_bodiless answered no h (by rwa [stopRequest_noShow no])
  | audioBlock => exact keeps_of_served answered no h fun body => by rwa [audioBlockRequest_stopped stopped]
  | configOpen => exact keeps_of_served answered no h (configOpenRequest_noShow no)
  | configCommit => exact keeps_of_bodiless answered no h (configCommitRequest_noShow no)
  | restart => exact keeps_of_bodiless answered no h s.restarted_noShow
  | outputFrameEvent =>
    exact keeps_of_next h (by rw [State.settleSeq_noShow no]; exact State.outputFrame_noShow no)
  | starvationHold => exact keeps_of_next h (keeps_when no fun due => by simp [hold] at due)
  | endOfShow => exact keeps_of_next h (keeps_when no fun due => by simp [ended] at due)
  | fadeEnd => exact keeps_of_next h (keeps_when no fun due => by simp [fade] at due)
  | startDeadlineExpiry => exact keeps_of_next h (keeps_when no fun _ => no)
  | estop | estopReset | debounceDeadlineExpiry => exact absurd (by decide) judges
  | _ => exact absurd (by simp [writes, portPart_ne]) untouched

end noShow

section unclaimed

variable {s t : State}

/-- A record without a claim put in place of another. -/
theorem Cha.Unclaimed.set {x : Cha} (unclaimed : x.Unclaimed) (c : Channel) {o : Ownership} (claim : o.claim = none) (n : Nat) :
    Cha.Unclaimed ⟨x.records.set c o, n⟩ := by
  intro d
  rw [channels_set]
  split
  · exact claim
  · exact unclaimed d

theorem unclaimed_tabulate {f : Channel → Ownership} (unclaimed : ∀ c, (f c).claim = none) (n : Nat) :
    Cha.Unclaimed ⟨tabulate f, n⟩ := by
  intro c
  rw [Fin.getElem_fin, getElem_tabulate]
  exact unclaimed c

/-- CLAIM and SET are refused during a stop (R63, R66). -/
theorem claimRequest_stopped (stopped : s.estop = true) (body : List Byte) : (claimRequest body s).1 = s := by
  simp only [claimRequest, stopped, if_true]
  split <;> rfl

theorem setRequest_stopped (stopped : s.estop = true) (body : List Byte) : (setRequest body s).1 = s := by
  simp only [setRequest, stopped, if_true]
  split
  · rfl
  · split <;> rfl

theorem releaseRequest_unclaimed (unclaimed : s.cha.Unclaimed) (body : List Byte) : (releaseRequest body s).1.cha.Unclaimed := by
  unfold releaseRequest refuse
  split
  · exact unclaimed
  · refine State.eachChannel_keeps (P := fun s => s.cha.Unclaimed) (fun u n c unclaimed => ?_) _ unclaimed
    rw [State.releaseChannel_unclaimed (unclaimed c)]
    exact unclaimed

theorem lockoutRequest_unclaimed (unclaimed : s.cha.Unclaimed) (body : List Byte) : (lockoutRequest body s).1.cha.Unclaimed := by
  unfold lockoutRequest refuse
  split
  · exact unclaimed
  · refine State.eachChannel_keeps (P := fun s => s.cha.Unclaimed) (fun u n c unclaimed => ?_) _ unclaimed
    rw [State.lockChannel_cha]
    exact unclaimed.set c rfl _

theorem State.unlockChannel_unclaimed (s : State) (n : Tally) (c : Channel) (unclaimed : s.cha.Unclaimed) :
    (s.unlockChannel n c).1.cha.Unclaimed := by
  cases locked : s.cha.records[c].lockout with
  | none =>
    rw [State.unlockChannel_unlocked locked]
    exact unclaimed
  | some l =>
    rw [State.unlockChannel_locked locked]
    refine unclaimed.set c ?_ _
    exact unclaimed c

theorem unlockRequest_unclaimed (unclaimed : s.cha.Unclaimed) (body : List Byte) : (unlockRequest body s).1.cha.Unclaimed := by
  unfold unlockRequest refuse
  split
  · exact unclaimed
  · exact State.eachChannel_keeps (P := fun s => s.cha.Unclaimed) State.unlockChannel_unclaimed _ unclaimed

theorem State.dropCompleteRejoin_unclaimed (unclaimed : s.cha.Unclaimed) (c : Channel) :
    (s.dropCompleteRejoin c).cha.Unclaimed := by
  rcases s.dropCompleteRejoin_cases c with same | ⟨-, removed⟩
  · rwa [same]
  · rw [removed]
    exact unclaimed.set c rfl _

theorem State.askSelected_unclaimed (unclaimed : s.cha.Unclaimed) (c : Channel) : (s.askSelected c).cha.Unclaimed := by
  unfold State.askSelected
  split
  · split
    · exact State.dropCompleteRejoin_unclaimed unclaimed c
    all_goals exact unclaimed
  · exact unclaimed

theorem State.lapsedClaim_unclaimed (unclaimed : s.cha.Unclaimed) (c : Channel) : s.lapsedClaim c = none := by
  rw [State.lapsedClaim, unclaimed c]

/-- During a stop no command but those that judge it makes a claim. -/
theorem exec_unclaimed {c : Instr} (h : exec c s = .next t) (judges : c ∉ stopJudges) (stopped : s.estop = true)
    (unclaimed : s.cha.Unclaimed) : t.cha.Unclaimed := by
  by_cases untouched : Part.cha ∉ writes c
  · rwa [(exec_within h).same .cha untouched]
  have answered (u : State) (p q r body) (k : u.cha.Unclaimed) : (u.answer p q r body).cha.Unclaimed := by
    rwa [State.answer_cha]
  have served {p kind take} := keeps_of_served (p := p) (kind := kind) (take := take) (t := t) answered unclaimed
  have next {u} := keeps_of_next (u := u) (t := t) (P := fun s => s.cha.Unclaimed)
  cases c with
  | coldReset => exact next h fun c => congrArg Ownership.claim (State.reset_channel c).2
  | claim => exact served h fun body => by rwa [claimRequest_stopped stopped]
  | set => exact served h fun body => by rwa [setRequest_stopped stopped]
  | release => exact served h (releaseRequest_unclaimed unclaimed)
  | lockout => exact served h (lockoutRequest_unclaimed unclaimed)
  | unlock => exact served h (unlockRequest_unclaimed unclaimed)
  | restart => exact keeps_of_bodiless answered unclaimed h (unclaimed_tabulate (fun _ => rfl) 0)
  | outputSelection ch => exact next h (State.askSelected_unclaimed unclaimed ch)
  | leaseExpiry ch => exact next h (by rwa [State.lapsedClaim_unclaimed unclaimed ch])
  | estop | estopReset | debounceDeadlineExpiry => exact absurd (by decide) judges
  | _ => exact absurd (by simp [writes, cha_ne_portPart]) untouched

end unclaimed

section stoppedLaw

variable {s t : State}

/-- An entry ends the show and every claim (R17, R73). -/
theorem State.enterStop_stoppedLaw (s : State) (cause : EntryCause) : (s.enterStop cause).StoppedLaw := by
  refine fun _ => ⟨?_, fun c => by rw [State.enterStop_record]⟩
  rw [State.enterStop_seq]
  split
  · exact .inr ‹_›
  · exact .inl (Seq.become_showState ..)

theorem State.judgeStop_stoppedLaw (cause : EntryCause) (law : s.StoppedLaw) : (s.judgeStop cause).StoppedLaw := by
  rcases s.judgeStop_cases cause with ⟨-, same⟩ | ⟨-, enters⟩ | ⟨-, e, leaves⟩
  · rwa [same]
  · rw [enters]
    exact s.enterStop_stoppedLaw cause
  · rw [leaves]
    exact nofun

theorem exec_stoppedLaw {c : Instr} (h : exec c s = .next t) (law : s.StoppedLaw) : t.StoppedLaw := by
  by_cases judges : c ∈ stopJudges
  · refine exec_stopJudges judges h (fun u p q r body law => ?_) law fun line latch debounce cause =>
      State.judgeStop_stoppedLaw (s := s.withCalls line latch debounce) cause law
    rw [State.stoppedLaw_iff, State.estop, State.NoShow, State.answer_plm, State.answer_seq, State.answer_cha]
    exact law
  · rw [State.stoppedLaw_iff]
    intro active
    by_cases cold : c = .coldReset
    · subst cold
      obtain rfl := Host.Outcome.next.inj h
      exact absurd active Bool.false_ne_true
    have stopped : s.estop = true := by
      by_cases slot : c = .slotExpiry
      · subst slot
        have stop : t.estop = s.estop := keeps_of_next (P := fun t => t.estop = s.estop) h
          (keeps_when (P := fun t => t.estop = s.estop) rfl fun _ => s.slotExpiry_stop.1)
        rwa [← stop]
      · rwa [← (exec_sameStop h judges cold slot).estop]
    obtain ⟨no, unclaimed⟩ := law stopped
    exact ⟨exec_noShow h judges stopped no, exec_unclaimed h judges stopped unclaimed⟩

end stoppedLaw

/-! ### While RESET_N is held (R194) -/

section held

variable {s t : State}

theorem State.coldReset_executing (s : State) (p : Port) : (s.coldReset.port p).executing = none := by cases p <;> rfl

/-- A port with no request in execution serves none (R175). -/
theorem State.serveWhen_idle {p : Port} {kind : Byte} {mine : List Byte → Bool} {take : List Byte → State → Reply}
    (idle : (s.port p).executing = none) : s.serveWhen p kind mine take = s := by
  rw [State.serveWhen, idle]

theorem State.coldReset_served {p : Port} {kind : Byte} {mine : List Byte → Bool} {take : List Byte → State → Reply}
    (h : (.next (s.coldReset.serveWhen p kind mine take) : Host.Outcome State Fault Refusal) = .next t) :
    t = s.coldReset := by
  rw [State.serveWhen_idle (s.coldReset_executing p)] at h
  exact (Host.Outcome.next.inj h).symm

/-- No line is being assembled after a cold reset (R92). -/
theorem State.coldReset_gathering (s : State) (c : Channel) : s.coldReset.gathering c = none := by
  have free : s.coldReset.fsc.line (lineOf (groupOf c)) = .free := by cases lineOf (groupOf c) <;> rfl
  rw [State.gathering, free]

theorem State.coldReset_handedOn (s : State) (c : Channel) : s.coldReset.handedOn c = none := by
  rw [State.handedOn, State.coldReset_gathering]

theorem State.coldReset_powerExpired (s : State) (i : Pump) : s.coldReset.powerExpired i = false := by
  rw [State.powerExpired, (s.coldReset_pump i).2]
  rfl

theorem State.coldReset_lapsedClaim (s : State) (c : Channel) : s.coldReset.lapsedClaim c = none :=
  State.lapsedClaim_unclaimed (fun c => congrArg Ownership.claim (s.coldReset_channel c).2.1) c

/-- An output frame puts out silence after a cold reset (R30). -/
theorem State.coldReset_outputFrame (s : State) : s.coldReset.settleSeq.outputFrame = s.coldReset := by
  rw [State.settleSeq_noShow (.inr rfl), State.outputFrame_standing rfl]
  rfl

theorem State.coldReset_finish (s : State) (p : Port) (bs : List Byte) :
    s.coldReset.withPort p ((s.coldReset.port p).finish bs) = s.coldReset := by cases p <;> rfl

/-- A change of the pin is all that RESET_N held lets through (R162; notes/assumptions/32). -/
theorem State.coldReset_rawChange (s : State) (low : Bool) :
    s.coldReset.rawChange low = (s.coldReset.rawChange low).coldReset := by
  unfold State.rawChange
  split <;> rfl

/-- Of a part in cold reset every command but the release leaves a part in cold reset: no block finds anything to act on. -/
theorem exec_keeps_coldReset {c : Instr} (h : exec c s.coldReset = .next t) (release : c ≠ .resetNRelease) :
    t = t.coldReset := by
  have same (k : t = s.coldReset) : t = t.coldReset := by rw [k]; rfl
  have stays {u : State} (e : (.next u : Host.Outcome State Fault Refusal) = .next t) (k : u = s.coldReset) :
      t = t.coldReset := same ((Host.Outcome.next.inj e).symm.trans k)
  cases c with
  | coldReset => exact stays h rfl
  | transactionStart p => exact stays h rfl
  | transactionEnd p bs => exact stays h (s.coldReset_finish p bs)
  | requestDispatch p => exact stays h (by cases p <;> rfl)
  | outputFrameEvent => exact stays h s.coldReset_outputFrame
  | starvationHold | endOfShow | fadeEnd | startDeadlineExpiry | slotExpiry | windDeadlineExpiry | levelDeadlineExpiry
  | debounceDeadlineExpiry | exchangeCompletion window => exact stays h rfl
  | channelEvaluation ch => exact stays h (by rw [State.askShown, State.coldReset_gathering])
  | outputSelection ch => exact stays h (by rw [State.askSelected, State.coldReset_gathering])
  | commandComputation i => exact stays h (by rw [State.coldReset_handedOn])
  | valveAnswer j => exact stays h (by rw [State.coldReset_handedOn])
  | fixtureRendering f => exact stays h (by rw [State.coldReset_handedOn])
  | frameHandover l => exact stays h (by cases l <;> rfl)
  | frameEnd l => exact stays h (by cases l <;> rfl)
  | powerDeadlineExpiry i => exact stays h (if_neg (by rw [State.coldReset_powerExpired]; decide))
  | leaseExpiry ch => exact stays h (by rw [State.coldReset_lapsedClaim])
  | estopNChange low =>
    obtain rfl := Host.Outcome.next.inj h
    exact s.coldReset_rawChange low
  | resetNRelease => exact absurd rfl release
  | _ => exact same (State.coldReset_served h)

theorem State.tick_released (s : State) : s.tick.clock.released = s.clock.released := by
  unfold State.tick
  split <;> rfl

/-- Only cold reset asserts RESET_N. -/
theorem exec_released {c : Instr} (h : exec c s = .next t) (cold : c ≠ .coldReset) (released : s.clock.released = true) :
    t.clock.released = true := by
  by_cases untouched : Part.clock ∉ writes c
  · rwa [(exec_within h).same .clock untouched]
  cases c with
  | coldReset => exact absurd rfl cold
  | slotExpiry =>
    refine keeps_of_next (P := fun t => t.clock.released = true) h
      (keeps_when (P := fun t => t.clock.released = true) released fun _ => ?_)
    rwa [State.slotExpiry_clock, State.tick_released]
  | resetNRelease =>
    refine keeps_of_next (P := fun t => t.clock.released = true) h ?_
    rwa [State.release, if_pos released]
  | _ => exact absurd (by simp [writes, plm_clock_ne_portPart]) untouched

theorem State.release_released (s : State) : s.release.clock.released = true := by
  unfold State.release
  split
  · exact ‹_›
  · rfl

theorem exec_heldLaw {c : Instr} (h : exec c s = .next t) (law : s.HeldLaw) : t.HeldLaw := by
  intro held
  by_cases cold : c = .coldReset
  · subst cold
    obtain rfl := Host.Outcome.next.inj h
    rfl
  by_cases release : c = .resetNRelease
  · subst release
    obtain rfl := Host.Outcome.next.inj h
    rw [s.release_released] at held
    cases held
  · have before : s.clock.released = false :=
      Bool.eq_false_of_not_eq_true fun released => by simp [exec_released h cold released] at held
    rw [law before] at h
    exact exec_keeps_coldReset h release

end held

/-- Settles O57: every command keeps each of the four laws, and the queue of waiting commands touches none of them. -/
theorem everyStepKeepsTheEmergencyStopLaw : Obligations.EveryStepKeepsTheEmergencyStopLaw := by
  intro s t h
  refine ⟨fun stop stopped => ⟨?_, ?_⟩, fun law => ?_, fun law => ?_⟩
  · exact step_keeps (P := fun s => s.plm.StopLaw) (fun _ _ => id) (fun _ _ _ law h => exec_stopLaw h law) stop h
  · exact step_keeps (P := State.StoppedLaw) (fun _ _ => id) (fun _ _ _ law h => exec_stoppedLaw h law) stopped h
  · exact step_keeps (P := State.StopLengthLaw) (fun _ _ => id) (fun _ _ _ law h => exec_stopLengthLaw h law) law h
  · exact step_keeps (P := State.HeldLaw)
      (fun s rest law held => congrArg (fun s : State => { s with pending := rest }) (law held))
      (fun _ _ _ law h => exec_heldLaw h law) law h

end Sys2Proof.Machine
end

section
namespace Sys2Proof.Machine

/-! ## What can happen to a master port (chapter 10) -/

/-- One thing that happens to a port: a notice placed, the request in execution answered, notices taken or cleared, a transaction begun or
ended, the next request taken or turned away, a cold reset. -/
inductive MasterPort.Event : MasterPort → MasterPort → Prop
  | placed (m n) : Event m (m.place n)
  | answered (m r) : m.executing.isSome = true → Event m ({ m with executing := none }.respond r)
  | noticesTaken (m) : Event m { m with notices := m.notices.drop Config.noticesTaken, dropped := false }.settle
  | noticesCleared (m) : Event m m.clearNotices
  | begun (m tr) : Event m { m with transaction := some tr }
  | ended (m bs) : Event m (m.finish bs)
  | taken {m q m'} (x) : m.executing = none → m.next = some (q, m') → Event m { m' with executing := some x }
  | turnedAway {m q m'} (r) : m.executing = none → m.next = some (q, m') → Event m (m'.respond r)
  | cold (m) : Event m .cold

/-- A port after any number of such events. -/
abbrev MasterPort.Reaches : MasterPort → MasterPort → Prop := Relation.ReflTransGen MasterPort.Event

/-- A property that every event keeps is kept by any number of them. -/
theorem MasterPort.Reaches.keeps {P : MasterPort → Prop} (event : ∀ {m m'}, MasterPort.Event m m' → P m → P m') {m m' : MasterPort}
    (h : m.Reaches m') (start : P m) : P m' := by
  induction h with
  | refl => exact start
  | tail _ last ih => exact event last ih

/-! ### Operations that leave the request in execution -/

/-- Events have happened to the ports, and the requests in execution stand: what an owning block may do before it answers. -/
structure State.BeforeAnswer (s t : State) : Prop where
  reaches : ∀ p, (s.port p).Reaches (t.port p)
  executing : ∀ p, (t.port p).executing = (s.port p).executing

section commands

variable {s t u : State} {p : Port} {kind : Byte}

@[simp] theorem MasterPort.place_executing (m : MasterPort) (n : Notice) : (m.place n).executing = m.executing := by
  unfold MasterPort.place
  split
  · rfl
  · split <;> rfl

theorem MasterPort.reaches_places (ns : List Notice) (m : MasterPort) : m.Reaches (ns.foldl MasterPort.place m) := by
  induction ns generalizing m with
  | nil => exact .refl
  | cons n ns ih => exact .head (.placed m n) (ih _)

theorem State.OnlyPlaces.beforeAnswer (h : s.OnlyPlaces t) : s.BeforeAnswer t := by
  refine ⟨fun p => ?_, fun p => ?_⟩
  · obtain ⟨ns, placed⟩ := h.placed p
    exact placed ▸ MasterPort.reaches_places ns _
  · exact h.keeps (P := fun m => m.executing = (s.port p).executing) (fun m n same => by simpa using same) p rfl

theorem noticesRequest_beforeAnswer (p : Port) (s : State) : s.BeforeAnswer (noticesRequest p s).1 := by
  have port (o : Port) : (noticesRequest p s).1.port o = if o = p then
      { s.port p with notices := (s.port p).notices.drop Config.noticesTaken, dropped := false }.settle else s.port o :=
    State.withPort_port ..
  refine ⟨fun o => ?_, fun o => ?_⟩ <;> rw [port] <;> split
  · rename_i same
    exact same ▸ .single (.noticesTaken _)
  · exact .refl
  · rename_i same
    exact same ▸ rfl
  · rfl

theorem State.restarted_beforeAnswer (s : State) : s.BeforeAnswer s.restarted := by
  refine ⟨fun p => ?_, fun p => ?_⟩ <;> rw [State.restarted_port]
  · exact (Relation.ReflTransGen.single (.noticesCleared _)).tail (.placed _ _)
  · rw [MasterPort.place_executing]; rfl

/-! ### Requests that only raise notices -/

variable (s)

theorem armRequest_places (body : List Byte) : s.OnlyPlaces (armRequest body s).1 := by
  unfold armRequest refuse
  split
  · exact .refl s
  split
  · exact .refl s
  split
  case h_6 =>
    split
    · exact .refl s
    · dsimp only
      exact s.takeArm_places ..
  all_goals exact .refl s

theorem startRequest_places : s.OnlyPlaces (startRequest s).1 := by
  unfold startRequest refuse
  split
  · split
    · exact .refl s
    · split
      · exact s.run_places
      · exact s.withSeq_places _
  all_goals split <;> exact .refl s

theorem pauseRequest_places : s.OnlyPlaces (pauseRequest s).1 := by
  unfold pauseRequest refuse
  split <;> first | exact s.holdFor_places _ | exact .refl s

theorem resumeRequest_places : s.OnlyPlaces (resumeRequest s).1 := by
  unfold resumeRequest refuse
  split
  · split
    · split
      · exact s.run_places
      · exact s.holdFor_places _
    · exact .refl s
  all_goals exact .refl s

theorem stopRequest_places : s.OnlyPlaces (stopRequest s).1 := by
  unfold stopRequest refuse
  split
  · exact .refl s
  · exact .refl s
  · exact s.fadeOut_places _
  · exact s.fadeOut_places _
  · exact s.fadeOut_places _
  · exact s.withSeq_places _

theorem cueLoadRequest_places (body : List Byte) : s.OnlyPlaces (cueLoadRequest body s).1 := by
  unfold cueLoadRequest refuse
  split
  · exact .refl s
  split
  · exact .refl s
  split
  · exact .refl s
  · exact (s.withCst_places _).next (State.poolLowTest_places _)

theorem cueClearRequest_places (body : List Byte) : s.OnlyPlaces (cueClearRequest body s).1 := by
  unfold cueClearRequest refuse
  split
  · exact .refl s
  split
  · exact .refl s
  split
  · exact .refl s
  · exact (s.withCst_places _).next (State.poolLowTest_places _)

theorem audioBlockRequest_places (body : List Byte) : s.OnlyPlaces (audioBlockRequest body s).1 := by
  unfold audioBlockRequest
  split
  · exact .refl s
  split
  · exact .refl s
  split <;> first | exact .refl s | exact s.judgeBlock_places _

theorem audioFlushRequest_places : s.OnlyPlaces (audioFlushRequest s).1 :=
  s.flushAudio_places.next (State.lowMarkTest_places _)

theorem volumeRequest_places (body : List Byte) : s.OnlyPlaces (volumeRequest body s).1 := by
  unfold volumeRequest refuse
  split
  · exact .refl s
  · exact s.withPlu_places _

theorem claimRequest_places (body : List Byte) : s.OnlyPlaces (claimRequest body s).1 := by
  unfold claimRequest refuse
  split
  · exact .refl s
  split
  · exact .refl s
  · exact s.eachChannel_places (fun t n c => t.claimChannel_places c n) _

theorem setRequest_places (body : List Byte) : s.OnlyPlaces (setRequest body s).1 := by
  unfold setRequest refuse
  simp only
  repeat' split
  all_goals first | exact .refl s | exact s.withRecord_places _ _

theorem releaseRequest_places (body : List Byte) : s.OnlyPlaces (releaseRequest body s).1 := by
  unfold releaseRequest refuse
  split
  · exact .refl s
  · exact s.eachChannel_places (fun t n c => t.releaseChannel_places c n) _

theorem lockoutRequest_places (body : List Byte) : s.OnlyPlaces (lockoutRequest body s).1 := by
  unfold lockoutRequest refuse
  split
  · exact .refl s
  · exact s.eachChannel_places (fun t n c => t.lockChannel_places c _ n) _

theorem unlockRequest_places (body : List Byte) : s.OnlyPlaces (unlockRequest body s).1 := by
  unfold unlockRequest refuse
  split
  · exact .refl s
  · exact s.eachChannel_places (fun t n c => t.unlockChannel_places c n) _

theorem estopRequest_places : s.OnlyPlaces (estopRequest s).1 := (s.withPlm_places _).next (State.judgeStop_places _ _)

theorem estopResetRequest_places : s.OnlyPlaces (estopResetRequest s).1 :=
  (s.withPlm_places _).next (State.judgeStop_places _ _)

theorem drivePowerRequest_places (body : List Byte) : s.OnlyPlaces (drivePowerRequest body s).1 := by
  unfold drivePowerRequest refuse powerOnRequest powerOffRequest
  repeat' split
  all_goals first | exact .refl s | exact s.takePowerOn_places _ | exact s.takePowerOff_places _

theorem driveClearRequest_places (body : List Byte) : s.OnlyPlaces (driveClearRequest body s).1 := by
  unfold driveClearRequest refuse
  simp only
  repeat' split
  all_goals first | exact .refl s | exact s.withDrive_places _ _

theorem windRequest_places (body : List Byte) : s.OnlyPlaces (windRequest body s).1 := by
  unfold windRequest refuse
  split
  · exact .refl s
  · exact (s.withPlm_places _).next (State.updateAllowed_places _)

theorem levelRequest_places (body : List Byte) : s.OnlyPlaces (levelRequest body s).1 := by
  unfold levelRequest refuse
  split
  · exact .refl s
  · exact (s.withPlm_places _).next (State.lowWaterTest_places _ _)

theorem budgetRequest_places (body : List Byte) : s.OnlyPlaces (budgetRequest body s).1 := by
  unfold budgetRequest refuse
  split
  · exact .refl s
  · exact (s.withPgv_places _).next (State.budgetTest_places _)

theorem configOpenRequest_places (body : List Byte) : s.OnlyPlaces (configOpenRequest body s).1 := by
  unfold configOpenRequest
  repeat' split
  all_goals first | exact .refl s | exact (s.withCfg_places _).next (State.seqOpen_places _)

theorem configWriteRequest_places (body : List Byte) : s.OnlyPlaces (configWriteRequest body s).1 := by
  unfold configWriteRequest refuse
  repeat' split
  all_goals first | exact .refl s | exact s.withCfg_places _

theorem configCommitRequest_places : s.OnlyPlaces (configCommitRequest s).1 := by
  unfold configCommitRequest refuse
  repeat' split
  all_goals first | exact .refl s | exact s.install_places

/-! ### Every command -/

variable {s}

/-- Events have happened to each of the three ports. -/
structure State.PortsReach (s t : State) : Prop where
  reach : ∀ p, (s.port p).Reaches (t.port p)

theorem State.PortsReach.refl (s : State) : s.PortsReach s := ⟨fun _ => .refl⟩

theorem State.PortsReach.next (h : s.PortsReach t) (k : t.PortsReach u) : s.PortsReach u :=
  ⟨fun p => (h.reach p).trans (k.reach p)⟩

/-- One event happens to one port. -/
theorem State.withPort_reaches {m : MasterPort} (h : (s.port p).Event m) : s.PortsReach (s.withPort p m) := by
  refine ⟨fun o => ?_⟩
  rw [State.withPort_port]
  split
  · rename_i same
    exact same ▸ .single h
  · exact .refl

/-- What an owning block did, and then the answer to the request in execution. -/
theorem State.BeforeAnswer.answer (h : s.BeforeAnswer t) (asked : (s.port p).executing.isSome = true) (q : Request) (r : Result)
    (body : List Byte) : s.PortsReach (t.answer p q r body) :=
  State.PortsReach.next ⟨h.reaches⟩ (State.withPort_reaches (.answered _ _ (by rw [h.executing]; exact asked)))

theorem State.PortsReach.of_next (h : (.next u : Host.Outcome State Fault Refusal) = .next t) (k : s.OnlyPlaces u) :
    s.PortsReach t := Host.Outcome.next.inj h ▸ ⟨k.beforeAnswer.reaches⟩

theorem State.PortsReach.of_owner {mine : List Byte → Bool} {take : List Byte → State → Reply}
    (h : (.next (s.serveWhen p kind mine take) : Host.Outcome State Fault Refusal) = .next t)
    (k : ∀ body, s.BeforeAnswer (take body s).1) : s.PortsReach t := by
  obtain rfl := Host.Outcome.next.inj h
  exact State.serveWhen_keeps (.refl s) fun x executing _ _ => (k x.request.body).answer (by simp [executing]) ..

theorem State.PortsReach.of_served {mine : List Byte → Bool} {take : List Byte → State → Reply}
    (h : (.next (s.serveWhen p kind mine take) : Host.Outcome State Fault Refusal) = .next t)
    (k : ∀ body, s.OnlyPlaces (take body s).1) : s.PortsReach t := .of_owner h fun body => (k body).beforeAnswer

theorem State.PortsReach.of_bodiless {take : State → Reply}
    (h : (.next (s.serve p kind (bodiless take)) : Host.Outcome State Fault Refusal) = .next t)
    (k : s.BeforeAnswer (take s).1) : s.PortsReach t := by
  refine .of_owner h fun body => ?_
  unfold bodiless
  split
  · exact k
  · exact (State.OnlyPlaces.refl s).beforeAnswer

theorem State.dispatch_reaches (s : State) (p : Port) : s.PortsReach (s.dispatch p) := by
  unfold State.dispatch
  split
  · split
    · exact State.withPort_reaches (.turnedAway _ ‹_› ‹_›)
    · split
      · exact State.withPort_reaches (.taken _ ‹_› ‹_›)
      · exact State.withPort_reaches (.turnedAway _ ‹_› ‹_›)
  · exact .refl s

/-- Every command does to a port what the events of a port allow, and nothing else. -/
theorem exec_portsReach {c : Instr} (h : exec c s = .next t) : s.PortsReach t := by
  have same : s.OnlyPlaces s := .refl s
  cases c with
  | coldReset =>
    obtain rfl := Host.Outcome.next.inj h
    exact ⟨fun p => .single (by cases p <;> exact .cold _)⟩
  | transactionStart p =>
    obtain rfl := Host.Outcome.next.inj h
    split
    · exact .refl s
    · exact State.withPort_reaches (.begun _ _)
  | transactionEnd p bs =>
    obtain rfl := Host.Outcome.next.inj h
    exact State.withPort_reaches (.ended _ _)
  | requestDispatch p =>
    obtain rfl := Host.Outcome.next.inj h
    exact s.dispatch_reaches p
  | status p => exact .of_bodiless h same.beforeAnswer
  | notices p => exact .of_bodiless h (noticesRequest_beforeAnswer p s)
  | readChannel p => exact .of_served h fun body => (readChannelRequest_same s body).symm ▸ same
  | readDrive p => exact .of_served h fun body => (readDriveRequest_same s body).symm ▸ same
  | arm => exact .of_served h (armRequest_places s)
  | start => exact .of_bodiless h (startRequest_places s).beforeAnswer
  | pause p => exact .of_bodiless h (pauseRequest_places s).beforeAnswer
  | resume p => exact .of_bodiless h (resumeRequest_places s).beforeAnswer
  | stop p => exact .of_bodiless h (stopRequest_places s).beforeAnswer
  | cueLoad => exact .of_served h (cueLoadRequest_places s)
  | cueClear => exact .of_served h (cueClearRequest_places s)
  | audioBlock => exact .of_served h (audioBlockRequest_places s)
  | audioFlush => exact .of_bodiless h (audioFlushRequest_places s).beforeAnswer
  | volume p => exact .of_served h (volumeRequest_places s)
  | claim => exact .of_served h (claimRequest_places s)
  | set => exact .of_served h (setRequest_places s)
  | release => exact .of_served h (releaseRequest_places s)
  | lockout => exact .of_served h (lockoutRequest_places s)
  | unlock => exact .of_served h (unlockRequest_places s)
  | estop => exact .of_bodiless h (estopRequest_places s).beforeAnswer
  | estopReset => exact .of_bodiless h (estopResetRequest_places s).beforeAnswer
  | drivePowerOn => exact .of_served h (drivePowerRequest_places s)
  | drivePowerOff => exact .of_served h (drivePowerRequest_places s)
  | driveClear => exact .of_served h (driveClearRequest_places s)
  | wind => exact .of_served h (windRequest_places s)
  | level => exact .of_served h (levelRequest_places s)
  | budget => exact .of_served h (budgetRequest_places s)
  | configOpen => exact .of_served h (configOpenRequest_places s)
  | configWrite => exact .of_served h (configWriteRequest_places s)
  | configCommit => exact .of_bodiless h (configCommitRequest_places s).beforeAnswer
  | restart => exact .of_bodiless h s.restarted_beforeAnswer
  | outputFrameEvent => exact .of_next h (s.settleSeq_places.next (State.outputFrame_places _))
  | starvationHold => exact .of_next h (.ite (s.holdFor_places _) same)
  | endOfShow => exact .of_next h (.ite (s.fadeOut_places _) same)
  | fadeEnd => exact .of_next h (.ite s.endFade_places same)
  | startDeadlineExpiry => exact .of_next h (.ite s.startTimeout_places same)
  | slotExpiry => exact .of_next h (.ite s.slotExpiry_places same)
  | channelEvaluation ch => exact .of_next h (s.askShown_places ch)
  | outputSelection ch => exact .of_next h (s.askSelected_places ch)
  | commandComputation i =>
    refine .of_next h ?_
    split
    · exact (State.computeCommand_places ..).next (State.withGather_places ..)
    · exact same
  | valveAnswer j =>
    refine .of_next h ?_
    split
    · exact State.withGather_places ..
    · exact same
  | fixtureRendering f =>
    refine .of_next h ?_
    split
    · exact State.withGather_places ..
    · exact same
  | frameHandover l =>
    refine .of_next h ?_
    split
    · exact .ite (State.handGroup_places ..) same
    · exact .ite (State.handNull_places ..) same
    all_goals exact same
  | frameEnd l =>
    refine .of_next h (.ite same ?_)
    split
    · exact State.withLine_places ..
    all_goals exact same
  | exchangeCompletion window =>
    refine .of_next h ?_
    split
    · exact (State.completeExchange_places ..).next (State.withLine_places ..)
    all_goals exact same
  | powerDeadlineExpiry i => exact .of_next h (.ite (State.powerTimeout_places ..) same)
  | leaseExpiry ch =>
    refine .of_next h ?_
    split
    · exact State.expireLease_places ..
    · exact same
  | windDeadlineExpiry => exact .of_next h (.ite s.windGoesStale_places same)
  | levelDeadlineExpiry => exact .of_next h (.ite s.levelGoesStale_places same)
  | estopNChange low => exact .of_next h (s.rawChange_places low)
  | debounceDeadlineExpiry => exact .of_next h (.ite s.takeLine_places same)
  | resetNRelease => exact .of_next h s.release_places

end commands

end Sys2Proof.Machine
end

section
namespace Sys2Proof.Machine

/-! ## Admission (R173, R174) -/

section admission

variable (m : MasterPort)

/-- A port with room for a request takes it to the tail of its class's queue; any other refuses it and keeps its queues (R174). -/
theorem MasterPort.consider_cases (q : Request) :
    (m.consider q = { m with urgent := m.urgent ++ [q], admission := .admitted, admissionTag := q.tag } ∧
      classOf q.kind = .urgent ∧ m.urgent.length < Config.urgentPlaces ∧ m.outstanding < Config.outgoingPlaces) ∨
    (m.consider q = { m with bulk := m.bulk ++ [q], admission := .admitted, admissionTag := q.tag } ∧
      classOf q.kind = .bulk ∧ m.bulk.length < Config.bulkPlaces ∧ m.outstanding < Config.outgoingPlaces) ∨
    (m.consider q = { m with admission := .refusedFull, admissionTag := q.tag } ∧
      ¬ (m.hasRoom (classOf q.kind) = true ∧ m.outstanding < Config.outgoingPlaces)) := by
  unfold MasterPort.consider
  split
  · rename_i room
    obtain ⟨place, sum⟩ := room
    unfold MasterPort.join
    cases cls : classOf q.kind with
    | urgent => exact .inl ⟨rfl, rfl, by rw [cls] at place; exact of_decide_eq_true place, sum⟩
    | bulk => exact .inr (.inl ⟨rfl, rfl, by rw [cls] at place; exact of_decide_eq_true place, sum⟩)
  · exact .inr (.inr ⟨rfl, ‹_›⟩)

/-- The judgement of the bytes clocked in touches no response, no notice and no request in execution (R173, R174). -/
theorem MasterPort.takeBytes_fields (bs : List Byte) :
    (m.takeBytes bs).outgoing = m.outgoing ∧ (m.takeBytes bs).notices = m.notices ∧ (m.takeBytes bs).dropped = m.dropped ∧
      (m.takeBytes bs).executing = m.executing ∧ (m.takeBytes bs).attention = m.attention := by
  unfold MasterPort.takeBytes
  split
  case h_4 q _ =>
    rcases m.consider_cases q with ⟨e, -⟩ | ⟨e, -⟩ | ⟨e, -⟩ <;> rw [e] <;> exact ⟨rfl, rfl, rfl, rfl, rfl⟩
  all_goals exact ⟨rfl, rfl, rfl, rfl, rfl⟩

/-- The collection of a response at the end of a transaction: nothing, or the oldest response leaves and the attention output follows
(R172, R183). -/
theorem MasterPort.collect_cases (tr : Transaction) (n : Nat) :
    ((∃ r, tr.response = some r ∧ tr.header.length + r.length ≤ n) ∧
      m.collect tr n = { m with outgoing := m.outgoing.tail }.settle) ∨
    ((¬ ∃ r, tr.response = some r ∧ tr.header.length + r.length ≤ n) ∧ m.collect tr n = m) := by
  unfold MasterPort.collect
  rw [← List.drop_one]
  cases tr.response with
  | none => exact .inr ⟨by simp, rfl⟩
  | some r =>
    by_cases whole : tr.header.length + r.length ≤ n
    · exact .inl ⟨⟨r, rfl, whole⟩, if_pos whole⟩
    · exact .inr ⟨by simpa using whole, if_neg whole⟩

/-- A port between the collection and the judgement of the bytes: the end of a transaction (R172). -/
theorem MasterPort.finish_eq {tr : Transaction} (h : m.transaction = some tr) (bs : List Byte) :
    m.finish bs = { (m.collect tr bs.length).takeBytes bs with transaction := none, shiftedOut := tr.shifted bs.length } := by
  unfold MasterPort.finish
  rw [h]

theorem MasterPort.finish_idle (h : m.transaction = none) (bs : List Byte) : m.finish bs = m := by
  unfold MasterPort.finish
  rw [h]

/-- The next request is the oldest urgent one, or the oldest bulk one when no urgent one waits (R175). -/
theorem MasterPort.next_cases {m m' : MasterPort} {q : Request} (h : m.next = some (q, m')) :
    (∃ qs, m.urgent = q :: qs ∧ m' = { m with urgent := qs }) ∨
      ∃ qs, m.urgent = [] ∧ m.bulk = q :: qs ∧ m' = { m with bulk := qs } := by
  unfold MasterPort.next at h
  split at h
  · rename_i q' qs urgent
    cases h
    exact .inl ⟨qs, urgent, rfl⟩
  · rename_i urgent
    split at h
    · rename_i q' qs bulk
      cases h
      exact .inr ⟨qs, urgent, bulk, rfl⟩
    · cases h

end admission

/-! ## The attention output (R183) -/

theorem MasterPort.settle_attentionLaw (m : MasterPort) : m.settle.AttentionLaw := by
  simp [MasterPort.AttentionLaw, MasterPort.settle]

/-- The law looks only at the attention output, the responses and the notices. -/
theorem MasterPort.AttentionLaw.of_same {m m' : MasterPort} (h : m.AttentionLaw) (attention : m'.attention = m.attention)
    (outgoing : m'.outgoing = m.outgoing) (notices : m'.notices = m.notices) : m'.AttentionLaw := by
  rwa [MasterPort.AttentionLaw, attention, outgoing, notices]

theorem MasterPort.place_attentionLaw (m : MasterPort) (n : Notice) : (m.place n).AttentionLaw := by
  unfold MasterPort.place
  split
  · exact MasterPort.settle_attentionLaw _
  · split <;> exact MasterPort.settle_attentionLaw _

theorem MasterPort.collect_attentionLaw {m : MasterPort} (h : m.AttentionLaw) (tr : Transaction) (n : Nat) :
    (m.collect tr n).AttentionLaw := by
  rcases m.collect_cases tr n with ⟨-, e⟩ | ⟨-, e⟩ <;> rw [e]
  · exact MasterPort.settle_attentionLaw _
  · exact h

theorem MasterPort.finish_attentionLaw {m : MasterPort} (h : m.AttentionLaw) (bs : List Byte) : (m.finish bs).AttentionLaw := by
  cases transaction : m.transaction with
  | none => rwa [m.finish_idle transaction]
  | some tr =>
    rw [m.finish_eq transaction]
    obtain ⟨outgoing, notices, -, -, attention⟩ := (m.collect tr bs.length).takeBytes_fields bs
    exact (MasterPort.collect_attentionLaw h tr bs.length).of_same attention outgoing notices

theorem MasterPort.Event.attentionLaw {m m' : MasterPort} (e : m.Event m') (h : m.AttentionLaw) : m'.AttentionLaw := by
  cases e with
  | placed => exact MasterPort.place_attentionLaw ..
  | answered => exact MasterPort.settle_attentionLaw _
  | noticesTaken => exact MasterPort.settle_attentionLaw _
  | noticesCleared => exact MasterPort.settle_attentionLaw _
  | begun => exact h
  | ended => exact MasterPort.finish_attentionLaw h _
  | taken _ _ next => rcases MasterPort.next_cases next with ⟨_, _, rfl⟩ | ⟨_, _, _, rfl⟩ <;> exact h
  | turnedAway => exact MasterPort.settle_attentionLaw _
  | cold => simp [MasterPort.AttentionLaw, MasterPort.cold]

/-! ## The notice list (R181) -/

theorem Notice.sameKey_iff (a b : Notice) : a.sameKey b = true ↔ a.kind = b.kind ∧ a.subject = b.subject := by
  simp [Notice.sameKey]

/-- A notice put in the place of its key's entry leaves every key of the list where it was. -/
theorem sameKey_replace (n a b : Notice) :
    (if n.sameKey a = true then n else a).sameKey (if n.sameKey b = true then n else b) = a.sameKey b := by
  rw [Bool.eq_iff_iff]
  split <;> split <;> simp_all [Notice.sameKey_iff]

theorem MasterPort.place_noticeLaw (m : MasterPort) (n : Notice) (h : m.NoticeLaw) : (m.place n).NoticeLaw := by
  obtain ⟨places, keys⟩ := h
  unfold MasterPort.place
  split
  · refine ⟨by simpa using places, ?_⟩
    rw [MasterPort.settle_notices, List.pairwise_map]
    exact keys.imp fun differ => by rw [sameKey_replace]; exact differ
  · rename_i fresh
    split
    · refine ⟨by simp; omega, ?_⟩
      rw [MasterPort.settle_notices, List.pairwise_append]
      refine ⟨keys, List.pairwise_singleton _ _, fun a ha b hb => ?_⟩
      rw [List.mem_singleton] at hb
      subst hb
      rw [Bool.eq_false_iff, ne_eq, Notice.sameKey_iff]
      rintro ⟨kind, subject⟩
      exact fresh (List.any_eq_true.mpr ⟨a, ha, (Notice.sameKey_iff _ _).mpr ⟨kind.symm, subject.symm⟩⟩)
    · exact ⟨places, keys⟩

theorem MasterPort.NoticeLaw.of_same {m m' : MasterPort} (h : m.NoticeLaw) (notices : m'.notices = m.notices) : m'.NoticeLaw := by
  rwa [MasterPort.NoticeLaw, notices]

theorem MasterPort.collect_notices (m : MasterPort) (tr : Transaction) (n : Nat) : (m.collect tr n).notices = m.notices := by
  rcases m.collect_cases tr n with ⟨-, e⟩ | ⟨-, e⟩ <;> rw [e]
  rfl

theorem MasterPort.finish_notices (m : MasterPort) (bs : List Byte) : (m.finish bs).notices = m.notices := by
  cases transaction : m.transaction with
  | none => rw [m.finish_idle transaction]
  | some tr =>
    rw [m.finish_eq transaction]
    exact ((m.collect tr bs.length).takeBytes_fields bs).2.1.trans (m.collect_notices tr bs.length)

theorem MasterPort.Event.noticeLaw {m m' : MasterPort} (e : m.Event m') (h : m.NoticeLaw) : m'.NoticeLaw := by
  cases e with
  | placed => exact MasterPort.place_noticeLaw _ _ h
  | noticesTaken => exact ⟨by simpa using Nat.le_trans (Nat.sub_le ..) h.1, h.2.sublist (List.drop_sublist ..)⟩
  | noticesCleared => exact ⟨Nat.zero_le _, .nil⟩
  | ended => exact h.of_same (m.finish_notices _)
  | taken _ _ next | turnedAway _ _ next => rcases MasterPort.next_cases next with ⟨_, _, rfl⟩ | ⟨_, _, _, rfl⟩ <;> exact h
  | cold => exact ⟨Nat.zero_le _, .nil⟩
  | answered | begun => exact h

/-! ## Requests and responses outstanding (R171, R174) -/

/-- The sum that R174 keeps within sixteen. -/
theorem MasterPort.outstanding_eq (m : MasterPort) : m.outstanding =
    m.outgoing.length + m.urgent.length + m.bulk.length + (if m.executing.isSome = true then 1 else 0) := rfl

/-- Queues no longer than before, and no more outstanding. -/
theorem MasterPort.CapacityLaw.of_le {m m' : MasterPort} (h : m.CapacityLaw) (urgent : m'.urgent.length ≤ m.urgent.length)
    (bulk : m'.bulk.length ≤ m.bulk.length) (outstanding : m'.outstanding ≤ m.outstanding) : m'.CapacityLaw :=
  ⟨urgent.trans h.1, bulk.trans h.2.1, outstanding.trans h.2.2⟩

/-- A response placed by a port takes one place. -/
theorem MasterPort.respond_outstanding (m : MasterPort) (r : Response) : (m.respond r).outstanding = m.outstanding + 1 := by
  rw [MasterPort.respond_eq, MasterPort.outstanding_eq, MasterPort.outstanding_eq]
  simp only [List.length_append, List.length_singleton]
  omega

theorem MasterPort.next_outstanding {m m' : MasterPort} {q : Request} (h : m.next = some (q, m')) :
    m'.urgent.length ≤ m.urgent.length ∧ m'.bulk.length ≤ m.bulk.length ∧ m'.executing = m.executing ∧
      m'.outstanding + 1 = m.outstanding := by
  rcases MasterPort.next_cases h with ⟨qs, urgent, rfl⟩ | ⟨qs, -, bulk, rfl⟩
  · simp only [MasterPort.outstanding_eq, urgent, List.length_cons, true_and, le_refl]; omega
  · simp only [MasterPort.outstanding_eq, bulk, List.length_cons, true_and, le_refl]; omega

theorem MasterPort.collect_capacityLaw {m : MasterPort} (h : m.CapacityLaw) (tr : Transaction) (n : Nat) :
    (m.collect tr n).CapacityLaw := by
  rcases m.collect_cases tr n with ⟨-, e⟩ | ⟨-, e⟩ <;> rw [e]
  · refine h.of_le le_rfl le_rfl ?_
    have fewer : m.outgoing.tail.length ≤ m.outgoing.length := by simp
    exact Nat.add_le_add_right (Nat.add_le_add_right (Nat.add_le_add_right fewer _) _) _
  · exact h

theorem MasterPort.consider_capacityLaw {m : MasterPort} (h : m.CapacityLaw) (q : Request) : (m.consider q).CapacityLaw := by
  obtain ⟨urgent, bulk, sum⟩ := h
  rw [MasterPort.outstanding_eq] at sum
  rcases m.consider_cases q with ⟨e, -, place, room⟩ | ⟨e, -, place, room⟩ | ⟨e, -⟩ <;> rw [e]
  · rw [MasterPort.outstanding_eq] at room
    refine ⟨?_, bulk, ?_⟩ <;> simp only [MasterPort.outstanding_eq, List.length_append, List.length_singleton] <;> omega
  · rw [MasterPort.outstanding_eq] at room
    refine ⟨urgent, ?_, ?_⟩ <;> simp only [MasterPort.outstanding_eq, List.length_append, List.length_singleton] <;> omega
  · exact ⟨urgent, bulk, sum⟩

theorem MasterPort.takeBytes_capacityLaw {m : MasterPort} (h : m.CapacityLaw) (bs : List Byte) : (m.takeBytes bs).CapacityLaw := by
  unfold MasterPort.takeBytes
  split
  case h_4 q _ => exact MasterPort.consider_capacityLaw h q
  all_goals exact h

theorem MasterPort.finish_capacityLaw {m : MasterPort} (h : m.CapacityLaw) (bs : List Byte) : (m.finish bs).CapacityLaw := by
  cases transaction : m.transaction with
  | none => rwa [m.finish_idle transaction]
  | some tr =>
    rw [m.finish_eq transaction]
    exact MasterPort.takeBytes_capacityLaw (MasterPort.collect_capacityLaw h tr bs.length) bs

/-- A notice placed touches no queue. -/
theorem MasterPort.place_capacityLaw {m : MasterPort} (h : m.CapacityLaw) (n : Notice) : (m.place n).CapacityLaw := by
  unfold MasterPort.place
  split
  · exact h
  · split <;> exact h

theorem MasterPort.Event.capacityLaw {m m' : MasterPort} (e : m.Event m') (h : m.CapacityLaw) : m'.CapacityLaw := by
  cases e with
  | placed => exact MasterPort.place_capacityLaw h _
  | answered r asked =>
    refine h.of_le le_rfl le_rfl ?_
    rw [MasterPort.respond_outstanding]
    simp [MasterPort.outstanding_eq, asked]
  | ended => exact MasterPort.finish_capacityLaw h _
  | taken _ idle next =>
    obtain ⟨urgent, bulk, executing, one⟩ := MasterPort.next_outstanding next
    refine h.of_le urgent bulk (Eq.le ?_)
    rw [← one]
    simp [MasterPort.outstanding_eq, executing, idle]
  | turnedAway _ _ next =>
    obtain ⟨urgent, bulk, -, one⟩ := MasterPort.next_outstanding next
    exact h.of_le urgent bulk (by rw [MasterPort.respond_outstanding, one])
  | cold => exact ⟨Nat.zero_le _, Nat.zero_le _, Nat.zero_le _⟩
  | noticesTaken | noticesCleared | begun => exact h

/-! ## Every step -/

/-- A property of a port that every event of a port keeps is kept by every step. -/
theorem step_keeps_port {P : MasterPort → Prop} (event : ∀ {m m'}, MasterPort.Event m m' → P m → P m') {s t : State} {p : Port}
    (law : P (s.port p)) (h : step s = .next t) : P (t.port p) :=
  step_keeps (P := fun s => P (s.port p)) (fun s rest law => by cases p <;> exact law)
    (fun _ _ _ law h => ((exec_portsReach h).reach p).keeps event law) law h

/-- Settles O13: every step is a run of port events on each port, and every such event keeps each of the three laws. -/
theorem everyStepKeepsThePortLaws : Obligations.EveryStepKeepsThePortLaws := fun _ _ _ h =>
  ⟨fun law => step_keeps_port MasterPort.Event.noticeLaw law h, fun law => step_keeps_port MasterPort.Event.capacityLaw law h,
    fun law => step_keeps_port MasterPort.Event.attentionLaw law h⟩

end Sys2Proof.Machine
end

section
namespace Sys2Proof.Machine

/-! ## Transactions (R172, R173) -/

section transactions

/-- What a transaction shifts out: the bytes fixed, and FFh for as long as the master goes on clocking (R172). -/
theorem Transaction.shifted_eq (tr : Transaction) (n : Nat) :
    tr.shifted n = (tr.header ++ tr.response.getD [] ++ List.replicate n 0xFF).take n := by
  simp only [Transaction.shifted, Transaction.fixedBytes, List.take_append, List.take_replicate, List.length_append]
  rw [Nat.min_eq_left (Nat.sub_le _ _)]

/-- The tag byte of the bytes clocked in, 0 where there is none (R173). -/
theorem tagOf_eq (bs : List Byte) : tagOf bs = if 2 ≤ bs.length then bs.getD 1 0 else 0 := by
  obtain _ | ⟨kind, _ | ⟨tag, rest⟩⟩ := bs
  · rfl
  · rfl
  · rw [if_pos (by simp)]; rfl

/-! ### The judgement of the bytes clocked in (R173) -/

variable {bs : List Byte}

theorem judgeBytes_readOnly (h : bs = [] ∨ bs.head? = some 0) : judgeBytes bs = .readOnly :=
  if_pos (h.imp_left List.length_eq_zero_iff.mpr)

/-- Bytes that are no read. -/
theorem judgeBytes_notRead (filled : bs ≠ []) (kind : bs.head? ≠ some 0) : ¬ (bs.length = 0 ∨ bs.head? = some 0) := by
  rw [List.length_eq_zero_iff]
  exact not_or.mpr ⟨filled, kind⟩

theorem judgeBytes_headless (h : ¬ (bs.length = 0 ∨ bs.head? = some 0)) (short : bs.length < 4) : judgeBytes bs = .aborted := by
  rw [judgeBytes, if_neg h, if_pos short]

theorem judgeBytes_oversized (h : ¬ (bs.length = 0 ∨ bs.head? = some 0)) (head : 4 ≤ bs.length) (long : 1536 < field bs 2 2) :
    judgeBytes bs = .badFrame := by
  rw [judgeBytes, if_neg h, if_neg (by omega)]
  exact if_pos long

/-- Bytes with a head that gives a body of no more than 1,536 bytes are judged by their number and their check. -/
theorem judgeBytes_of_head (h : ¬ (bs.length = 0 ∨ bs.head? = some 0)) (head : 4 ≤ bs.length) (body : field bs 2 2 ≤ 1536) :
    judgeBytes bs =
      if bs.length < 4 + field bs 2 2 + 2 then .aborted
      else if (crc (bs.take (4 + field bs 2 2))).toNat ≠ field bs (4 + field bs 2 2) 2 then .badFrame
      else .wellFormed ⟨bs.headD 0, (bs.drop 1).headD 0, (bs.drop 4).take (field bs 2 2)⟩ := by
  rw [judgeBytes, if_neg h, if_neg (by omega)]
  exact if_neg (Nat.not_lt.mpr body)

/-- A frame laid out as R184 says, with any fill after it, is the request it carries. -/
theorem judgeBytes_frame {kind tag : Byte} {body : List Byte} (named : kind ≠ 0) (length : body.length ≤ 1536) {covered : List Byte}
    (h : covered = [kind, tag] ++ bytes 2 body.length ++ body) (fill : List Byte) :
    judgeBytes (covered ++ bytes 2 (crc covered).toNat ++ fill) = .wellFormed ⟨kind, tag, body⟩ := by
  have coveredLength : covered.length = 4 + body.length := by simp [h]; omega
  have size : field (covered ++ bytes 2 (crc covered).toNat ++ fill) 2 2 = body.length := by
    rw [h, List.append_assoc, List.append_assoc, List.append_assoc, field_skip _ _ _ _ (by simp)]
    exact field_head _ _ _ (by omega)
  have check : field (covered ++ bytes 2 (crc covered).toNat ++ fill) (4 + body.length) 2 = (crc covered).toNat := by
    rw [List.append_assoc, field_skip _ _ _ _ (by omega), coveredLength, Nat.sub_self]
    exact field_head _ _ _ (BitVec.isLt _)
  have taken : (covered ++ bytes 2 (crc covered).toNat ++ fill).take (4 + body.length) = covered := by
    rw [List.append_assoc, ← coveredLength, List.take_left]
  rw [judgeBytes_of_head (by simpa [h] using named) (by rw [List.append_assoc, List.length_append]; omega) (by omega), size,
    check, taken, if_neg (by simp only [List.length_append, coveredLength, bytes_length]; omega), if_neg (by simp)]
  have header : bytes 2 body.length = [BitVec.ofNat 8 (body.length / 256), BitVec.ofNat 8 body.length] := by
    simp [bytes, List.range_succ]
  simp [h, header]

/-! ### The end of a transaction (R172) -/

section ending

variable (m : MasterPort) (tr : Transaction)

/-- The port once the transaction has ended and what it fixed has been collected, before the bytes clocked in are judged. -/
def MasterPort.afterCollection (n : Nat) : MasterPort :=
  { m.collect tr n with transaction := none, shiftedOut := tr.shifted n }

theorem MasterPort.afterCollection_outgoing (n : Nat) : (m.afterCollection tr n).outgoing =
    if ∃ r, tr.response = some r ∧ tr.header.length + r.length ≤ n then m.outgoing.tail else m.outgoing := by
  unfold MasterPort.afterCollection
  rcases m.collect_cases tr n with ⟨whole, e⟩ | ⟨kept, e⟩ <;> rw [e]
  · exact (if_pos whole).symm
  · exact (if_neg kept).symm

theorem MasterPort.afterCollection_fields (n : Nat) :
    (m.afterCollection tr n).urgent = m.urgent ∧ (m.afterCollection tr n).bulk = m.bulk ∧
      (m.afterCollection tr n).executing = m.executing ∧ (m.afterCollection tr n).notices = m.notices ∧
      (m.afterCollection tr n).dropped = m.dropped ∧ (m.afterCollection tr n).errorCount = m.errorCount := by
  unfold MasterPort.afterCollection
  rcases m.collect_cases tr n with ⟨-, e⟩ | ⟨-, e⟩ <;> rw [e] <;> exact ⟨rfl, rfl, rfl, rfl, rfl, rfl⟩

variable {m tr}

/-- The judgement of the bytes reads neither the transaction nor what was shifted out, so it can come last. -/
theorem MasterPort.finish_eq_takeBytes (h : m.transaction = some tr) (bs : List Byte) :
    m.finish bs = (m.afterCollection tr bs.length).takeBytes bs := by
  rw [m.finish_eq h]
  unfold MasterPort.afterCollection MasterPort.takeBytes
  split
  case h_4 q _ =>
    unfold MasterPort.consider MasterPort.join
    split
    · rename_i room
      rw [if_pos (by exact room)]
      split <;> rfl
    · rename_i room
      rw [if_neg (by exact room)]
      rfl
  all_goals rfl

theorem transactionEnd_eq {s : State} {p : Port} (h : (s.port p).transaction = some tr) (bs : List Byte) :
    exec (.transactionEnd p bs) s = .next (s.withPort p (((s.port p).afterCollection tr bs.length).takeBytes bs)) := by
  rw [← MasterPort.finish_eq_takeBytes h]
  rfl

/-- A frame that is not executed leaves its outcome and its tag, and is counted (R173). -/
theorem MasterPort.takeBytes_faulty {bs : List Byte} :
    (judgeBytes bs = .aborted → m.takeBytes bs =
      { m with admission := .aborted, admissionTag := tagOf bs, errorCount := min (m.errorCount + 1) 255 }) ∧
    (judgeBytes bs = .badFrame → m.takeBytes bs =
      { m with admission := .badFrame, admissionTag := tagOf bs, errorCount := min (m.errorCount + 1) 255 }) := by
  unfold MasterPort.takeBytes
  exact ⟨fun h => by rw [h]; rfl, fun h => by rw [h]; rfl⟩

end ending

/-! ### Admission (R174) -/

section admitted

variable {m : MasterPort} {q : Request}

theorem MasterPort.consider_urgent (cls : classOf q.kind = .urgent) (place : m.urgent.length < 4) (sum : m.outstanding < 16) :
    m.consider q = { m with urgent := m.urgent ++ [q], admission := .admitted, admissionTag := q.tag } := by
  rcases m.consider_cases q with ⟨e, -⟩ | ⟨-, bulk, -⟩ | ⟨-, full⟩
  · exact e
  · rw [cls] at bulk; cases bulk
  · rw [cls] at full
    exact absurd ⟨decide_eq_true place, sum⟩ full

theorem MasterPort.consider_bulk (cls : classOf q.kind = .bulk) (place : m.bulk.length < 8) (sum : m.outstanding < 16) :
    m.consider q = { m with bulk := m.bulk ++ [q], admission := .admitted, admissionTag := q.tag } := by
  rcases m.consider_cases q with ⟨-, urgent, -⟩ | ⟨e, -⟩ | ⟨-, full⟩
  · rw [cls] at urgent; cases urgent
  · exact e
  · rw [cls] at full
    exact absurd ⟨decide_eq_true place, sum⟩ full

theorem MasterPort.consider_full (full : (classOf q.kind = .urgent ∧ 4 ≤ m.urgent.length) ∨
      (classOf q.kind = .bulk ∧ 8 ≤ m.bulk.length) ∨ 16 ≤ m.outstanding) :
    m.consider q = { m with admission := .refusedFull, admissionTag := q.tag } := by
  rcases m.consider_cases q with ⟨-, urgent, place, room⟩ | ⟨-, bulk, place, room⟩ | ⟨e, -⟩
  · rcases full with ⟨-, long⟩ | ⟨bulk, -⟩ | sum
    · exact absurd place (Nat.not_lt.mpr long)
    · rw [urgent] at bulk; cases bulk
    · exact absurd room (Nat.not_lt.mpr sum)
  · rcases full with ⟨urgent, -⟩ | ⟨-, long⟩ | sum
    · rw [bulk] at urgent; cases urgent
    · exact absurd place (Nat.not_lt.mpr long)
    · exact absurd room (Nat.not_lt.mpr sum)
  · exact e

/-- Whether admitted or refused, a request touches only the queues and the admission record. -/
theorem MasterPort.consider_fields (m : MasterPort) (q : Request) :
    (m.consider q).outgoing = m.outgoing ∧ (m.consider q).transaction = m.transaction ∧ (m.consider q).executing = m.executing ∧
      (m.consider q).notices = m.notices ∧ (m.consider q).dropped = m.dropped ∧ (m.consider q).errorCount = m.errorCount ∧
      (m.consider q).admissionTag = q.tag ∧ (m.consider q).shiftedOut = m.shiftedOut := by
  rcases m.consider_cases q with ⟨e, -⟩ | ⟨e, -⟩ | ⟨e, -⟩ <;> rw [e] <;> exact ⟨rfl, rfl, rfl, rfl, rfl, rfl, rfl, rfl⟩

end admitted

end transactions

/-- Settles O5: the header is the one of R184 byte by byte, and the response is the oldest one with its check. -/
theorem transactionStartFixesWhatIsShiftedOut : Obligations.TransactionStartFixesWhatIsShiftedOut := by
  refine ⟨by decide +kernel, fun s p => ⟨fun held => ?_, fun released idle => ⟨s.fixed p, ?_, ?_, fun empty => ?_,
    fun r rs waits => ?_⟩⟩⟩
  · exact congrArg Host.Outcome.next (if_pos (.inl held))
  · exact congrArg Host.Outcome.next (if_neg (by simp [released, idle]))
  · simp [State.fixed, State.statusHeader, State.portFlags, bytes_one]
  · simp [State.fixed, empty]
  · refine ⟨_, rfl, ?_⟩
    simp [State.fixed, waits, Response.toBytes, Response.covered, bytes_one]

/-- Settles O6: the bytes are judged to be the request, and the port after the collection admits it or refuses it for room. -/
theorem aWellFormedFrameIsAdmittedOrRefusedForRoom : Obligations.AWellFormedFrameIsAdmittedOrRefusedForRoom := by
  intro s p tr kind tag body fill inProgress named length covered frame coveredEq frameEq left leftEq
  let after := (s.port p).afterCollection tr (frame ++ fill).length
  obtain ⟨urgent, bulk, executing, notices, dropped, errorCount⟩ :=
    (s.port p).afterCollection_fields tr (frame ++ fill).length
  have outgoing : after.outgoing = left := by
    rw [leftEq, ← List.length_append]
    exact (s.port p).afterCollection_outgoing tr _
  have outstanding : after.outstanding = left.length + (s.port p).urgent.length + (s.port p).bulk.length +
      (if (s.port p).executing.isSome then 1 else 0) := by
    rw [MasterPort.outstanding_eq, outgoing, urgent, bulk, executing]
  have taken : after.takeBytes (frame ++ fill) = after.consider ⟨kind, tag, body⟩ := by
    rw [MasterPort.takeBytes, frameEq, judgeBytes_frame named length coveredEq]
  obtain ⟨outgoing', transaction', executing', notices', dropped', errorCount', tag', shiftedOut'⟩ :=
    after.consider_fields ⟨kind, tag, body⟩
  refine ⟨after.consider ⟨kind, tag, body⟩, by rw [transactionEnd_eq inProgress, taken], outgoing'.trans outgoing,
    transaction', executing'.trans executing, notices'.trans notices, dropped'.trans dropped, errorCount'.trans errorCount, tag', ?_,
    fun cls place room => ?_, fun cls place room => ?_, fun full => ?_⟩
  · rw [shiftedOut', ← List.length_append]
    exact tr.shifted_eq _
  · rw [MasterPort.consider_urgent cls (by rw [urgent]; exact place) (by rw [outstanding]; exact room)]
    exact ⟨congrArg (· ++ _) urgent, bulk, rfl⟩
  · rw [MasterPort.consider_bulk cls (by rw [bulk]; exact place) (by rw [outstanding]; exact room)]
    exact ⟨urgent, congrArg (· ++ _) bulk, rfl⟩
  · rw [MasterPort.consider_full (by rw [urgent, bulk, outstanding]; exact full)]
    exact ⟨urgent, bulk, rfl⟩

/-- Settles O7: after the collection, a read leaves the port, and each other judgement only records and counts the frame. -/
theorem faultyFramesAreCountedAndNotExecuted : Obligations.FaultyFramesAreCountedAndNotExecuted := by
  intro s p tr bs inProgress Collected ended left faulty collected endedEq leftNot leftCollected faultyEq
  have leftEq : (s.port p).afterCollection tr bs.length = left := by
    unfold MasterPort.afterCollection
    rw [tr.shifted_eq]
    rcases (s.port p).collect_cases tr bs.length with ⟨whole, e⟩ | ⟨kept, e⟩ <;> rw [e]
    · rw [leftCollected (collected.mpr whole), endedEq]; rfl
    · rw [leftNot (kept ∘ collected.mp), endedEq]
  have errorCount : left.errorCount = (s.port p).errorCount := by
    rw [← leftEq]
    exact ((s.port p).afterCollection_fields tr bs.length).2.2.2.2.2
  have runs : exec (.transactionEnd p bs) s = .next (s.withPort p (left.takeBytes bs)) := by
    rw [transactionEnd_eq inProgress, leftEq]
  have aborted (h : judgeBytes bs = .aborted) : exec (.transactionEnd p bs) s = .next (s.withPort p (faulty .aborted)) := by
    rw [runs, MasterPort.takeBytes_faulty.1 h, faultyEq, errorCount, tagOf_eq]
  have badFrame (h : judgeBytes bs = .badFrame) : exec (.transactionEnd p bs) s = .next (s.withPort p (faulty .badFrame)) := by
    rw [runs, MasterPort.takeBytes_faulty.2 h, faultyEq, errorCount, tagOf_eq]
  refine ⟨fun read => ?_, fun filled kind => ⟨fun short => ?_, fun head long => ?_, fun head body short => ?_,
    fun whole body check => ?_⟩⟩
  · rw [runs, MasterPort.takeBytes, judgeBytes_readOnly read]
  · exact aborted (judgeBytes_headless (judgeBytes_notRead filled kind) short)
  · exact badFrame (judgeBytes_oversized (judgeBytes_notRead filled kind) head long)
  · exact aborted (by rw [judgeBytes_of_head (judgeBytes_notRead filled kind) head body, if_pos short])
  · refine badFrame ?_
    rw [judgeBytes_of_head (judgeBytes_notRead filled kind) (by omega) body, if_neg (Nat.not_lt.mpr whole), if_pos check]

end Sys2Proof.Machine
end

section
namespace Sys2Proof.Machine

/-! ## The catalogue of requests (R174, R176) -/

theorem catalogue_urgentEverywhere : ∀ k ∈ [0x01#8, 0x02#8, 0x03#8, 0x04#8], catalogue k = some ⟨.urgent, true, true, true⟩ := by
  decide

theorem catalogue_bulkShow :
    ∀ k ∈ [0x10#8, 0x11#8, 0x18#8, 0x19#8, 0x1A#8, 0x1B#8], catalogue k = some ⟨.bulk, true, false, false⟩ := by
  decide

theorem catalogue_urgentShowConsole :
    ∀ k ∈ [0x12#8, 0x13#8, 0x14#8, 0x1C#8], catalogue k = some ⟨.urgent, true, false, true⟩ := by
  decide

theorem catalogue_urgentConsole : ∀ k ∈ [0x20#8, 0x21#8, 0x22#8], catalogue k = some ⟨.urgent, false, false, true⟩ := by
  decide

theorem catalogue_urgentPlant : ∀ k ∈ [0x28#8, 0x29#8, 0x30#8, 0x31#8, 0x32#8, 0x33#8, 0x34#8, 0x35#8, 0x36#8],
    catalogue k = some ⟨.urgent, false, true, false⟩ := by
  decide

theorem catalogue_bulkPlant : ∀ k ∈ [0x40#8, 0x41#8, 0x42#8, 0x43#8], catalogue k = some ⟨.bulk, false, true, false⟩ := by
  decide

/-- Every kind that the catalogue of R176 names. -/
def namedKinds : List Byte :=
  [0x01, 0x02, 0x03, 0x04, 0x10, 0x11, 0x18, 0x19, 0x1A, 0x1B, 0x12, 0x13, 0x14, 0x1C, 0x20, 0x21, 0x22, 0x28, 0x29, 0x30, 0x31,
    0x32, 0x33, 0x34, 0x35, 0x36, 0x40, 0x41, 0x42, 0x43]

/-- The catalogue has a row for the kinds named and for no other. -/
theorem catalogue_unnamed (k : Byte) (h : k ∉ namedKinds) : catalogue k = none := by
  have other : ∀ n ∈ namedKinds, k.toNat ≠ n.toNat := fun n named same => h (BitVec.eq_of_toNat_eq same ▸ named)
  simp only [namedKinds, List.forall_mem_cons, BitVec.ofNat_eq_ofNat, BitVec.toNat_ofNat] at other
  unfold catalogue
  rw [if_neg (by omega), if_neg (by omega), if_neg (by omega), if_neg (by omega), if_neg (by omega), if_neg (by omega),
    if_neg (by omega), if_neg (by omega), if_neg (by omega)]

theorem classOf_of_row {k : Byte} {row : KindRow} (h : catalogue k = some row) : classOf k = row.cls := by rw [classOf, h]

theorem classOf_unnamed {k : Byte} (h : catalogue k = none) : classOf k = .bulk := by rw [classOf, h]

/-! ## Dispatch (R175) -/

section dispatch

variable {s : State} {p : Port} {q : Request} {m : MasterPort}

theorem MasterPort.next_of_urgent {m : MasterPort} {qs : List Request} (h : m.urgent = q :: qs) :
    m.next = some (q, { m with urgent := qs }) := by
  rw [MasterPort.next, h]

theorem MasterPort.next_of_bulk {m : MasterPort} {qs : List Request} (empty : m.urgent = []) (h : m.bulk = q :: qs) :
    m.next = some (q, { m with bulk := qs }) := by
  rw [MasterPort.next, empty, h]

variable (idle : (s.port p).executing = none) (next : (s.port p).next = some (q, m))
include idle next

theorem requestDispatch_unknown (unknown : catalogue q.kind = none) :
    exec (.requestDispatch p) s = .next (s.withPort p { m with
      outgoing := m.outgoing ++ [⟨q.kind, q.tag, .badArgument, []⟩], attention := true }) := by
  rw [← MasterPort.respond_eq]
  show Host.Outcome.next (s.dispatch p) = _
  simp only [State.dispatch, idle, next, unknown]

theorem requestDispatch_elsewhere {k : KindRow} (row : catalogue q.kind = some k) (elsewhere : k.permits p = false) :
    exec (.requestDispatch p) s = .next (s.withPort p { m with
      outgoing := m.outgoing ++ [⟨q.kind, q.tag, .wrongPort, []⟩], attention := true }) := by
  rw [← MasterPort.respond_eq]
  show Host.Outcome.next (s.dispatch p) = _
  simp only [State.dispatch, idle, next, row, elsewhere, Bool.false_eq_true, if_false]

theorem requestDispatch_permitted {k : KindRow} (row : catalogue q.kind = some k) (permitted : k.permits p = true) :
    exec (.requestDispatch p) s = .next (s.withPort p { m with executing := some ⟨q, s.clock.now⟩ }) := by
  show Host.Outcome.next (s.dispatch p) = _
  simp only [State.dispatch, idle, next, row, permitted, if_true]

end dispatch

/-- Settles O8: the catalogue kind by kind, the dispatch by the row it finds, and the answer field by field. -/
theorem requestsAreDispatchedInOrderAndAnsweredOnce : Obligations.RequestsAreDispatchedInOrderAndAnsweredOnce := by
  refine ⟨⟨catalogue_urgentEverywhere, catalogue_bulkShow, catalogue_urgentShowConsole, catalogue_urgentConsole,
    catalogue_urgentPlant, catalogue_bulkPlant, fun k unnamed => ?_, fun k row h => ⟨classOf_of_row h, rfl, rfl, rfl⟩⟩,
    fun s p q m idle waits => ?_, fun s p kind tag body reply r => ⟨by simp, s.answer_within ..⟩⟩
  · have noRow := catalogue_unnamed k unnamed
    exact ⟨noRow, classOf_unnamed noRow⟩
  · have next : (s.port p).next = some (q, m) := by
      rcases waits with ⟨qs, urgent, rfl⟩ | ⟨qs, empty, bulk, rfl⟩
      · exact MasterPort.next_of_urgent urgent
      · exact MasterPort.next_of_bulk empty bulk
    exact ⟨requestDispatch_unknown idle next, fun k row =>
      ⟨requestDispatch_elsewhere idle next row, requestDispatch_permitted idle next row⟩⟩

/-! ## NOTICES (R182) -/

/-- Settles O11: the port after NOTICES is written out, and its response counts and lists the entries removed. -/
theorem noticesRemovesTheOldest : Obligations.NoticesRemovesTheOldest := by
  intro s p tag asked
  refine ⟨{ s.port p with notices := (s.port p).notices.drop 16, dropped := false }.settle, ?_, rfl, rfl, rfl, rfl, rfl, rfl, rfl,
    rfl, rfl, rfl⟩
  refine .of_reply rfl asked ?_
  have counted : ((s.port p).notices.take 16).length = min 16 (s.port p).notices.length := List.length_take
  rw [bodiless, if_pos rfl, ← counted, ← List.singleton_append, ← bytes_one]
  rfl

end Sys2Proof.Machine
end

section
namespace Sys2Proof.Machine

/-! ## Where a body carries what it was put together from (R177, R185) -/

section carried

variable {reply a b : List Byte} {n : Nat}

/-- A body carries itself. -/
theorem carriedAt_self (piece : List Byte) : CarriedAt piece 0 piece := by
  rw [CarriedAt, List.drop_zero, List.take_length]

/-- Two pieces in a row are carried one after the other. -/
theorem carriedAt_append : CarriedAt reply n (a ++ b) ↔ CarriedAt reply n a ∧ CarriedAt reply (n + a.length) b := by
  rw [CarriedAt, CarriedAt, CarriedAt, List.length_append, List.take_add, List.drop_drop]
  refine ⟨fun h => ?_, fun ⟨h, k⟩ => by rw [h, k]⟩
  have length : ((reply.drop n).take a.length).length = a.length := by
    have := congrArg List.length h
    simp only [List.length_append, List.length_take, List.length_drop] at this ⊢
    omega
  exact List.append_inj h length

/-- The number that a body carries at a place is its field there. -/
theorem field_of_carriedAt {k v : Nat} (h : CarriedAt reply n (bytes k v)) (fits : v < 256 ^ k) : field reply n k = v := by
  rw [CarriedAt, bytes_length] at h
  rw [field, h, value_bytes k v fits]

theorem optionAt_iff {k : Nat} (x : Option Nat) : OptionAt reply n k x ↔ CarriedAt reply n (optBytes k x) := by
  cases x <;> simp [OptionAt, optBytes, absent]

theorem valueAt_iff (v : Value) : ValueAt reply n v ↔ CarriedAt reply n (valueBytes v) := by
  cases v with
  | level x => simp [ValueAt, valueBytes, show bytes 3 0 = [0#8, 0#8, 0#8] from rfl]
  | colour c => simp [ValueAt, valueBytes]

end carried

@[simp] theorem positionField_length (n : Nat) : (positionField n).length = 4 := by
  unfold positionField
  split <;> exact bytes_length ..

/-! ## STATUS (R178, R185) -/

theorem positionField_of_lt {n : Nat} (h : n < 4294967296) : positionField n = bytes 4 n := if_pos h

/-- Every field of STATUS at its place: the body is carried from its head on, piece after piece. -/
theorem State.statusBody_reported (s : State) {p : Port} {at_ : Time} (taken : s.takenAt p = at_) {reply : List Byte}
    (h : reply = s.statusBody p) : s.StatusReported p at_ reply := by
  have whole : CarriedAt reply 0 (s.statusBody p) := h ▸ carriedAt_self _
  simp only [State.statusBody, State.statusShow, State.statusWorks, State.statusPlant, carriedAt_append, List.length_append,
    bytes_length, flagByte_length, optBytes_length, optTime_length, positionField_length, Nat.reduceAdd, taken] at whole
  simp only [flagByte, freshnessCode, lineStateCode, stopStateCode, optTime, Option.map_map, Function.comp_def] at whole
  simp only [State.StatusReported, optionAt_iff, carriedAt_append, List.length_append, bytes_length, Nat.reduceAdd]
  have partCode : Config.partCode = 0x4820 := rfl
  simp only [whole, ← partCode, and_self, true_and, and_true]
  refine ⟨fun fits => ?_, fun fits => ?_⟩ <;> rw [← positionField_of_lt fits] <;> simp only [whole]

theorem State.statusBody_length (s : State) (p : Port) : (s.statusBody p).length = 89 := by
  simp [State.statusBody, State.statusShow, State.statusWorks, State.statusPlant]

/-- Settles O9: the body is the one whose fields stand at their places, and a place that carries a number gives it back. -/
theorem statusReportsAndChangesNothing : Obligations.StatusReportsAndChangesNothing := by
  intro s p tag at_ asked
  have taken : s.takenAt p = at_ := by simp [State.takenAt, asked]
  have reported := s.statusBody_reported taken rfl
  refine ⟨s.statusBody p, .of_reply rfl ⟨at_, asked⟩ rfl, s.statusBody_length p, reported, ?_⟩
  simp only [State.StatusReported, carriedAt_append, List.length_append, bytes_length, Nat.reduceAdd] at reported
  refine ⟨field_of_carriedAt (by simp only [reported]) (by decide), field_of_carriedAt (by simp only [reported]) ?_,
    field_of_carriedAt (by simp only [reported]) ?_, fun fits => field_of_carriedAt (by simp only [reported]) fits,
    fun fits => field_of_carriedAt (by simp only [reported]) fits, field_of_carriedAt (by simp only [reported]) ?_,
    field_of_carriedAt (by simp only [reported]) at_.isLt,
    fun places => field_of_carriedAt (by simp only [reported]) (Nat.lt_of_le_of_lt places (by decide))⟩
  · cases s.cfg.state <;> decide
  · cases s.seq.showState <;> decide
  · split <;> decide

end Sys2Proof.Machine
end

section
namespace Sys2Proof.Machine

/-! ## READ_DRIVE (R180, R185) -/

section readDrive

@[simp] theorem pendingBytes_length (x : Option PendingCommand) : (pendingBytes x).length = 6 := by cases x <;> simp [pendingBytes]

@[simp] theorem faultBytes_length (x : Option FaultCause) : (faultBytes x).length = 2 := by
  rcases x with _ | _ | _ <;> simp [faultBytes]

@[simp] theorem telemetryBytes_length (x : Option Telemetry) : (telemetryBytes x).length = 9 := by
  cases x <;> simp [telemetryBytes]

theorem State.driveReadBody_length (s : State) (i : Pump) : (s.driveReadBody i).length = 38 := by simp [State.driveReadBody]

/-- Every field of READ_DRIVE at its place: the body is carried from its head on, piece after piece. -/
theorem State.driveReadBody_reported (s : State) (i : Pump) {reply : List Byte} (h : reply = s.driveReadBody i) :
    s.DriveReported i reply := by
  rintro d p rfl rfl
  have whole : CarriedAt reply 0 (s.driveReadBody i) := h ▸ carriedAt_self _
  simp only [State.driveReadBody, presenceCode, carriedAt_append, List.length_append, bytes_length, flagByte_length,
    optTime_length, pendingBytes_length, faultBytes_length, telemetryBytes_length, Nat.reduceAdd, and_assoc] at whole
  obtain ⟨index, presence, power, pending, awaits, deadline, fault, misses, telemetry, age, allowed, commanded, share⟩ := whole
  have timed : CarriedAt reply 9 (flagByte s.dlc[i].deadline.isSome ++ optTime s.dlc[i].deadline) :=
    carriedAt_append.mpr ⟨awaits, by rwa [flagByte_length]⟩
  refine ⟨?_, fun h => ?_, fun q h => ?_, fun h => ?_, fun t h => ?_, fun h => ?_, fun n h => ?_, fun h => ?_, misses, fun h => ?_,
    fun x h => ?_, ?_⟩
  · simp only [carriedAt_append, List.length_append, bytes_length, Nat.reduceAdd, and_assoc]
    exact ⟨index, presence, power⟩
  · rw [h] at pending; exact pending
  · rw [h] at pending; exact pending
  · rw [h] at timed; exact timed
  · rw [h] at timed; simpa [flagByte, bytes_one, optTime, optBytes] using timed
  · rw [h] at fault; exact fault
  · rw [h] at fault; exact fault
  · rw [h] at fault; exact fault
  · rw [h] at telemetry; exact telemetry
  · rw [h] at telemetry; exact telemetry
  · simp only [carriedAt_append, List.length_append, bytes_length, Nat.reduceAdd, and_assoc]
    exact ⟨age, allowed, commanded, share⟩

end readDrive

/-! ## READ_CHANNEL (R179, R185) -/

section readChannel

@[simp] theorem claimBytes_length (x : Option Claim) : (claimBytes x).length = 22 := by cases x <;> simp [claimBytes]

@[simp] theorem lockoutBytes_length (x : Option Lockout) : (lockoutBytes x).length = 7 := by cases x <;> simp [lockoutBytes]

@[simp] theorem rejoinBytes_length (x : Option Rejoin) : (rejoinBytes x).length = 11 := by cases x <;> simp [rejoinBytes]

@[simp] theorem activeCueBytes_length (l : List Cue) : (activeCueBytes l).length = 21 := by
  unfold activeCueBytes
  split
  · split <;> simp
  · simp

@[simp] theorem Lamp.toBytes_length (l : Lamp) : l.toBytes.length = 4 := by simp [Lamp.toBytes]

@[simp] theorem State.outputEntryBytes_length (s : State) (c : Channel) : (s.outputEntryBytes c).length = 4 := by
  unfold State.outputEntryBytes
  split
  · simp
  · split <;> simp

theorem State.channelBody_length (s : State) (c : Channel) : (s.channelBody c).length = 83 := by simp [State.channelBody]

/-- No ACTIVE cue in a list of PENDING ones. -/
theorem activeCueBytes_pending {l : List Cue} (h : ∀ k ∈ l, k.isPending = true) :
    activeCueBytes l = 0 :: List.replicate 20 0xFF := by
  have noActive : l.find? Cue.isActive = none := by
    rw [List.find?_eq_none]
    exact fun k hk => by simp [Cue.isActive, h k hk]
  rw [activeCueBytes, noActive]
  rfl

/-- The first cue of a list is reported when it is ACTIVE. -/
theorem activeCueBytes_active {k : Cue} {post : List Cue} {v : Value} {a : Option Time} (h : k.state = .active v a) :
    activeCueBytes (k :: post) = 1 :: bytes 4 k.start ++ bytes 4 k.duration ++ bytes 1 k.curve.code ++ valueBytes k.target ++
      bytes 1 k.origin.code ++ valueBytes v := by
  have first : (k :: post).find? Cue.isActive = some k := List.find?_cons_of_pos (by simp [Cue.isActive, Cue.isPending, h])
  rw [activeCueBytes, first]
  simp only [h]
  rfl

theorem State.outputEntryBytes_pump (s : State) (i : Pump) : s.outputEntryBytes (pumpChannel i) = [0xFF, 0xFF, 0xFF, 0xFF] := by
  rw [State.outputEntryBytes, dif_pos (show (pumpChannel i).val < 16 from i.isLt)]
  rfl

theorem State.outputEntryBytes_jet (s : State) (j : Jet) :
    s.outputEntryBytes (jetChannel j) = bytes 2 s.out.valves[j] ++ [0xFF, 0xFF] := by
  have jet : 16 ≤ (jetChannel j).val ∧ (jetChannel j).val < 144 := ⟨Nat.le_add_right .., by simp [jetChannel]; omega⟩
  rw [State.outputEntryBytes, dif_neg (Nat.not_lt.mpr jet.1), dif_pos jet.2]
  simp only [jetChannel, Nat.add_sub_cancel_left]
  rfl

theorem State.outputEntryBytes_fixture (s : State) (f : Fixture) :
    s.outputEntryBytes (fixtureChannel f) = s.out.lamps[f].toBytes := by
  have fixture : 144 ≤ (fixtureChannel f).val := Nat.le_add_right ..
  rw [State.outputEntryBytes, dif_neg (by omega), dif_neg (by omega)]
  simp only [fixtureChannel, Nat.add_sub_cancel_left]
  rfl

/-- Every field of READ_CHANNEL at its place: the body is carried from its head on, piece after piece. -/
theorem State.channelBody_reported (s : State) (c : Channel) {reply : List Byte} (h : reply = s.channelBody c) :
    s.ChannelReported c reply := by
  have whole : CarriedAt reply 0 (s.channelBody c) := h ▸ carriedAt_self _
  simp only [State.channelBody, Ownership.ownerCode, Ownership.partsCode, State.currentOutput, carriedAt_append, List.length_append,
    bytes_length, valueBytes_length, claimBytes_length, lockoutBytes_length, rejoinBytes_length, activeCueBytes_length,
    Nat.reduceAdd, and_assoc] at whole
  obtain ⟨number, owner, parts, claim, lockout, rejoin, output, shown, count, pending, active, entry⟩ := whole
  unfold State.ChannelReported
  simp only [valueAt_iff]
  refine ⟨?_, shown, carriedAt_append.mpr ⟨count, by rwa [bytes_length]⟩, fun h => ?_, fun k post v a h state => ?_,
    fun i h => ?_, fun j h => ?_, fun f l h hl => ?_⟩
  · rintro o rfl
    refine ⟨?_, fun h => ?_, fun k h => ?_, fun h => ?_, fun l h => ?_, fun h => ?_, fun r h => ?_, fun l locked => ?_,
      fun k unlocked claimed => ?_, fun unlocked unclaimed settled => ?_, fun r unlocked unclaimed rejoining => ?_⟩
    · simp only [carriedAt_append, List.length_append, bytes_length, Nat.reduceAdd, and_assoc]
      exact ⟨number, owner, parts⟩
    · rw [h] at claim; exact claim
    · rw [h] at claim
      simpa only [claimBytes, carriedAt_append, List.length_append, bytes_length, valueBytes_length, Nat.reduceAdd, and_assoc]
        using claim
    · rw [h] at lockout; exact lockout
    · rw [h] at lockout
      simpa only [lockoutBytes, flagByte, carriedAt_append, List.length_append, bytes_length, valueBytes_length, Nat.reduceAdd,
        and_assoc] using lockout
    · rw [h] at rejoin; exact rejoin
    · rw [h] at rejoin
      simpa only [rejoinBytes, carriedAt_append, List.length_append, bytes_length, valueBytes_length, Nat.reduceAdd, and_assoc]
        using rejoin
    · rwa [Ownership.output_of_lockout locked] at output
    · rwa [Ownership.output_of_claim unlocked claimed] at output
    · rwa [Ownership.output_of_show unlocked unclaimed settled] at output
    · rwa [Ownership.output_of_rejoin unlocked unclaimed rejoining] at output
  · rwa [activeCueBytes_pending h] at active
  · rw [h, activeCueBytes_active state] at active
    simpa only [carriedAt_append, List.length_append, List.length_cons, bytes_length, valueBytes_length, Nat.reduceAdd, and_assoc]
      using active
  · subst h; rwa [State.outputEntryBytes_pump] at entry
  · subst h; rwa [State.outputEntryBytes_jet] at entry
  · subst h hl
    rw [State.outputEntryBytes_fixture] at entry
    simpa only [List.flatMap_cons, List.flatMap_nil, List.append_nil, Lamp.toBytes, List.append_assoc] using entry

end readChannel

/-! ## The two reads -/

theorem channelOf_beyond {n : Nat} (h : 335 < n) : channelOf n = none := dif_neg (by omega)

theorem pumpOf_beyond {n : Nat} (h : 15 < n) : pumpOf n = none := dif_neg (by omega)

theorem pumpOf_val {n : Nat} {i : Pump} (h : n = i.val) : pumpOf n = some i := by
  subst h
  exact dif_pos i.isLt

section reads

variable {s : State} {body : List Byte}

theorem readChannelRequest_refused (h : body.length ≠ 2 ∨ 335 < field body 0 2) :
    readChannelRequest body s = (s, .badArgument, []) := by
  unfold readChannelRequest
  split
  · rfl
  · rename_i length
    rw [channelOf_beyond (h.resolve_left length)]
    rfl

theorem readChannelRequest_taken {c : Channel} (length : body.length = 2) (channel : field body 0 2 = c.val) :
    readChannelRequest body s = (s, .ok, s.channelBody c) := by
  rw [readChannelRequest, if_neg (not_not.mpr length), channelOf_val channel]

/-- A body of one byte is that byte. -/
theorem eq_singleton_of_length (h : body.length = 1) : ∃ b : Byte, body = [b] ∧ field body 0 1 = b.toNat := by
  obtain ⟨b, rfl⟩ := List.length_eq_one_iff.mp h
  exact ⟨b, rfl, by simp [field]⟩

theorem readDriveRequest_refused (h : body.length ≠ 1 ∨ 15 < field body 0 1) :
    readDriveRequest body s = (s, .badArgument, []) := by
  by_cases length : body.length = 1
  · obtain ⟨b, rfl, index⟩ := eq_singleton_of_length length
    rw [readDriveRequest, pumpOf_beyond (index ▸ h.resolve_left (not_not.mpr length))]
    rfl
  · unfold readDriveRequest
    split
    · exact absurd rfl length
    · rfl

theorem readDriveRequest_taken {i : Pump} (length : body.length = 1) (index : field body 0 1 = i.val) :
    readDriveRequest body s = (s, .ok, s.driveReadBody i) := by
  obtain ⟨b, rfl, byte⟩ := eq_singleton_of_length length
  rw [readDriveRequest, pumpOf_val (byte.symm.trans index)]

end reads

/-- Settles O10: each read is refused by its body, or answers with the body whose fields stand at their places. -/
theorem readsReportAndChangeNothing : Obligations.ReadsReportAndChangeNothing := by
  intro s p tag body
  refine ⟨fun asked => ⟨fun bad => .of_reply rfl asked (readChannelRequest_refused bad), fun c length channel => ?_⟩,
    fun asked => ⟨fun bad => .of_reply rfl asked (readDriveRequest_refused bad), fun i length index => ?_⟩⟩
  · exact ⟨s.channelBody c, .of_reply rfl asked (readChannelRequest_taken length channel), s.channelBody_length c,
      s.channelBody_reported c rfl⟩
  · exact ⟨s.driveReadBody i, .of_reply rfl asked (readDriveRequest_taken length index), s.driveReadBody_length i,
      s.driveReadBody_reported i rfl⟩

end Sys2Proof.Machine
end

section
namespace Sys2Proof.Machine

/-! ## Refused requests (R6, R23, R41, R47, R63, R66, R67, R69, R72, R132, R134, R176) -/

section refused

variable {s : State} {p : Port} {tag kind : Byte} {body : List Byte} {c : Instr}

/-- A request whose chapter specifies no body, sent with one (R176). -/
theorem Answers.of_unwantedBody {take : State → Reply} (e : exec c s = .next (s.serve p kind (bodiless take))) (filled : body ≠ [])
    (asked : s.InExecution p kind tag body) : Answers c s p kind tag body s .badArgument [] :=
  .of_reply e asked (if_neg filled)

/-! ### The show -/

/-- end_ms of an ARM, when it is present, against start_ms (R6). -/
theorem armEndTooEarly_iff (present : field body 4 4 ≠ 0xFFFFFFFF) :
    armEndTooEarly body = true ↔ min (field body 4 4) 86400000 ≤ min (field body 0 4) 86399999 := by
  rw [armEndTooEarly, armEndMs, if_neg (show field body 4 4 ≠ Config.count32Max from present)]
  exact decide_eq_true_iff

theorem arm_refused (asked : s.InExecution .showPort 0x10 tag body) :
    (body.length ≠ 9 → Answers .arm s .showPort 0x10 tag body s .badArgument []) ∧
    (body.length = 9 →
      (s.estop = true → Answers .arm s .showPort 0x10 tag body s .estopActive []) ∧
      (s.estop = false →
        (s.seq.showState = .unconfigured → Answers .arm s .showPort 0x10 tag body s .notConfigured []) ∧
        (s.seq.showState ≠ .unconfigured → s.seq.showState ≠ .idle → Answers .arm s .showPort 0x10 tag body s .busyState []) ∧
        (s.seq.showState = .idle → field body 4 4 ≠ 0xFFFFFFFF →
          min (field body 4 4) 86400000 ≤ min (field body 0 4) 86399999 →
          Answers .arm s .showPort 0x10 tag body s .badArgument []))) := by
  refine ⟨fun size => .of_reply rfl asked (if_pos size), fun size => ⟨fun stop => .of_reply rfl asked ?_,
    fun clear => ⟨fun unconfigured => .of_reply rfl asked ?_, fun configured busy => .of_reply rfl asked ?_,
      fun idle present early => .of_reply rfl asked ?_⟩⟩⟩ <;> rw [armRequest, if_neg (not_not.mpr size)]
  · rw [if_pos stop]; rfl
  all_goals rw [if_neg (by simp [clear])]
  · rw [unconfigured]; rfl
  · cases state : s.seq.showState with
    | unconfigured => exact absurd state configured
    | idle => exact absurd state busy
    | armed | running | hold | fading => rfl
  · rw [idle]
    exact if_pos ((armEndTooEarly_iff present).mpr early)

/-- A block that R23 does not take. -/
theorem blockOk_eq_false (h : body.length < 6 ∨ field body 4 2 = 0 ∨ 240 < field body 4 2 ∨ body.length ≠ 6 + 6 * field body 4 2 ∨
    4294967296 < field body 0 4 + field body 4 2) : blockOk body = false := by
  rw [Bool.eq_false_iff]
  intro ok
  simp only [blockOk, Bool.and_eq_true, decide_eq_true_eq] at ok
  simp only [blockCount, Config.blockFrames] at ok
  omega

theorem audioBlock_refused (asked : s.InExecution .showPort 0x1A tag body) (bad : body.length < 6 ∨ field body 4 2 = 0 ∨
      240 < field body 4 2 ∨ body.length ≠ 6 + 6 * field body 4 2 ∨ 4294967296 < field body 0 4 + field body 4 2) :
    Answers .audioBlock s .showPort 0x1A tag body s .badArgument s.plu.positionBody :=
  .of_reply rfl asked (if_pos (blockOk_eq_false bad))

theorem cueLoad_refused (asked : s.InExecution .showPort 0x18 tag body) :
    (body.length = 0 ∨ body.length % 16 ≠ 0 ∨ 1024 < body.length → Answers .cueLoad s .showPort 0x18 tag body s .badArgument []) ∧
    (body.length ≠ 0 → body.length % 16 = 0 → body.length ≤ 1024 →
      (s.estop = true → Answers .cueLoad s .showPort 0x18 tag body s .estopActive []) ∧
      (s.estop = false → s.seq.showState = .unconfigured ∨ s.seq.showState = .fading →
        Answers .cueLoad s .showPort 0x18 tag body s .busyState [])) := by
  refine ⟨fun bad => .of_reply rfl asked (if_pos bad), fun filled whole few => ?_⟩
  refine ⟨fun stop => .of_reply rfl asked ?_, fun clear quiet => .of_reply rfl asked ?_⟩ <;>
    rw [cueLoadRequest, if_neg (by omega)]
  · rw [if_pos stop]; rfl
  · rw [if_neg (by simp [clear]), if_pos quiet]; rfl

theorem cueClear_refused (asked : s.InExecution .showPort 0x19 tag body) :
    (body.length ≠ 8 ∨ 335 < field body 2 2 ∨ field body 2 2 < field body 0 2 →
      Answers .cueClear s .showPort 0x19 tag body s .badArgument []) ∧
    (body.length = 8 → field body 2 2 ≤ 335 → field body 0 2 ≤ field body 2 2 →
      (s.estop = true → Answers .cueClear s .showPort 0x19 tag body s .estopActive []) ∧
      (s.estop = false → s.seq.showState = .unconfigured ∨ s.seq.showState = .fading →
        Answers .cueClear s .showPort 0x19 tag body s .busyState [])) := by
  refine ⟨fun bad => .of_reply rfl asked (if_pos bad), fun size range order => ?_⟩
  refine ⟨fun stop => .of_reply rfl asked ?_, fun clear quiet => .of_reply rfl asked ?_⟩ <;>
    rw [cueClearRequest, if_neg (by omega)]
  · rw [if_pos stop]; rfl
  · rw [if_neg (by simp [clear]), if_pos quiet]; rfl

/-! ### Channels -/

theorem channelListOk_eq_false (h : body.length = 0 ∨ body.length % 2 = 1 ∨ 128 < body.length) : channelListOk body = false := by
  rw [Bool.eq_false_iff]
  intro ok
  simp only [channelListOk, Bool.and_eq_true, decide_eq_true_eq] at ok
  omega

theorem channelListOk_eq_true (filled : body.length ≠ 0) (even : body.length % 2 = 0) (few : body.length ≤ 128) :
    channelListOk body = true := by
  simp only [channelListOk, Bool.and_eq_true, decide_eq_true_eq]
  exact ⟨⟨filled, even⟩, few⟩

theorem claim_refused (asked : s.InExecution .consolePort 0x20 tag body) :
    (body.length = 0 ∨ body.length % 2 = 1 ∨ 128 < body.length → Answers .claim s .consolePort 0x20 tag body s .badArgument []) ∧
    (body.length ≠ 0 → body.length % 2 = 0 → body.length ≤ 128 → s.estop = true →
      Answers .claim s .consolePort 0x20 tag body s .estopActive []) := by
  refine ⟨fun bad => .of_reply rfl asked (if_pos (channelListOk_eq_false bad)), fun filled even few stop => .of_reply rfl asked ?_⟩
  rw [claimRequest, if_neg (by simp [channelListOk_eq_true filled even few]), if_pos stop]
  rfl

theorem set_refused (asked : s.InExecution .consolePort 0x21 tag body) :
    (body.length ≠ 11 ∨ 335 < field body 0 2 → Answers .set s .consolePort 0x21 tag body s .badArgument []) ∧
    ∀ c : Channel, body.length = 11 → field body 0 2 = c.val →
      (s.estop = true → Answers .set s .consolePort 0x21 tag body s .estopActive []) ∧
      (s.estop = false → s.cha.records[c].lockout ≠ none → Answers .set s .consolePort 0x21 tag body s .channelLocked []) ∧
      (s.estop = false → s.cha.records[c].lockout = none → s.cha.records[c].claim = none →
        Answers .set s .consolePort 0x21 tag body s .notOwner []) := by
  refine ⟨fun bad => .of_reply rfl asked ?_, fun c size channel => ?_⟩
  · unfold setRequest
    split
    · rfl
    · rename_i size
      rw [channelOf_beyond (bad.resolve_left size)]
      rfl
  · refine ⟨fun stop => .of_reply rfl asked ?_, fun clear locked => .of_reply rfl asked ?_,
      fun clear unlocked unclaimed => .of_reply rfl asked ?_⟩ <;>
      rw [setRequest, if_neg (not_not.mpr size), channelOf_val channel]
    · exact if_pos stop
    · simp only [clear, Option.isSome_iff_ne_none.mpr locked, Bool.false_eq_true, if_false, if_true]
      rfl
    · simp only [clear, unlocked, unclaimed, Option.isSome_none, Bool.false_eq_true, if_false]
      rfl

theorem release_refused (asked : s.InExecution .consolePort 0x22 tag body) (bad : body.length % 2 = 1 ∨ 128 < body.length) :
    Answers .release s .consolePort 0x22 tag body s .badArgument [] := by
  have filled : body ≠ [] := by rintro rfl; simp at bad
  exact .of_reply rfl asked (if_pos ⟨filled, channelListOk_eq_false (.inr bad)⟩)

theorem lockout_refused (asked : s.InExecution .plantPort 0x28 tag body)
    (bad : body.length < 9 ∨ 135 < body.length ∨ body.length % 2 = 0) :
    Answers .lockout s .plantPort 0x28 tag body s .badArgument [] := .of_reply rfl asked (if_pos bad)

theorem unlock_refused (asked : s.InExecution .plantPort 0x29 tag body)
    (bad : body.length = 0 ∨ body.length % 2 = 1 ∨ 128 < body.length) :
    Answers .unlock s .plantPort 0x29 tag body s .badArgument [] := .of_reply rfl asked (if_pos (channelListOk_eq_false bad))

/-! ### Drives -/

/-- A body of two bytes is those bytes. -/
theorem eq_pair_of_length (h : body.length = 2) :
    ∃ a b : Byte, body = [a, b] ∧ field body 0 1 = a.toNat ∧ field body 1 1 = b.toNat := by
  obtain ⟨a, b, rfl⟩ := List.length_eq_two.mp h
  exact ⟨a, b, rfl, by simp [field], by simp [field]⟩

/-- A malformed body of DRIVE_POWER is a request neither for on nor for off (R132). -/
theorem drivePowerRequest_malformed (bad : body.length ≠ 2 ∨ 15 < field body 0 1 ∨ 1 < field body 1 1) :
    drivePowerRequest body s = (s, .badArgument, []) ∧ asksForPower 0 body = false ∧ asksForPower 1 body = false := by
  by_cases size : body.length = 2
  · obtain ⟨a, b, rfl, index, request⟩ := eq_pair_of_length size
    rw [index, request] at bad
    have bad := bad.resolve_left (not_not.mpr size)
    by_cases range : a.toNat < 16
    · have neither : b ≠ 1 ∧ b ≠ 0 := by
        have := bad.resolve_left (by omega)
        exact ⟨by rintro rfl; simp at this, by rintro rfl; simp at this⟩
      refine ⟨?_, by simpa [asksForPower] using fun _ => neither.2, by simpa [asksForPower] using fun _ => neither.1⟩
      simp only [drivePowerRequest, pumpOf, dif_pos range, neither.1, neither.2, if_false]
      rfl
    · refine ⟨?_, by simp [asksForPower, range], by simp [asksForPower, range]⟩
      simp only [drivePowerRequest, pumpOf, dif_neg range]
      rfl
  · unfold drivePowerRequest asksForPower
    split
    · exact absurd rfl size
    · exact ⟨rfl, rfl, rfl⟩

theorem drivePower_refused (asked : s.InExecution .plantPort 0x32 tag body)
    (bad : body.length ≠ 2 ∨ 15 < field body 0 1 ∨ 1 < field body 1 1) :
    ∀ c ∈ [Instr.drivePowerOn, .drivePowerOff], Answers c s .plantPort 0x32 tag body s .badArgument [] := by
  obtain ⟨refused, notOff, notOn⟩ := drivePowerRequest_malformed (s := s) bad
  simp only [List.forall_mem_cons, List.not_mem_nil, false_imp_iff, implies_true, and_true]
  refine ⟨?_, ?_⟩
  · show execDrivePowerOn s = _
    rw [execDrivePowerOn, State.serveWhen_eq asked, refused, notOff]
    rfl
  · show execDrivePowerOff s = _
    rw [execDrivePowerOff, State.serveWhen_eq asked, refused, notOn]
    rfl

theorem driveClear_refused (asked : s.InExecution .plantPort 0x33 tag body) (bad : body.length ≠ 1 ∨ 15 < field body 0 1) :
    Answers .driveClear s .plantPort 0x33 tag body s .badArgument [] := by
  refine .of_reply rfl asked ?_
  by_cases size : body.length = 1
  · obtain ⟨b, rfl, index⟩ := eq_singleton_of_length size
    rw [driveClearRequest, pumpOf_beyond (index ▸ bad.resolve_left (not_not.mpr size))]
    rfl
  · unfold driveClearRequest
    split
    · exact absurd rfl size
    · rfl

end refused

/-- Settles O12: each request's refusals, in the order of its tests. -/
theorem refusedRequestsChangeNothing : Obligations.RefusedRequestsChangeNothing := by
  refine fun s tag body => ⟨fun filled p => ?_, arm_refused, audioBlock_refused, cueLoad_refused, cueClear_refused, claim_refused,
    set_refused, release_refused, lockout_refused, unlock_refused, drivePower_refused, driveClear_refused⟩
  simp only [List.forall_mem_cons, List.not_mem_nil, false_imp_iff, implies_true, and_true]
  exact ⟨.of_unwantedBody rfl filled, .of_unwantedBody rfl filled, .of_unwantedBody rfl filled, .of_unwantedBody rfl filled,
    .of_unwantedBody rfl filled, .of_unwantedBody rfl filled, .of_unwantedBody rfl filled, .of_unwantedBody rfl filled,
    .of_unwantedBody rfl filled, .of_unwantedBody rfl filled, .of_unwantedBody rfl filled⟩

end Sys2Proof.Machine
end

section
namespace Sys2Proof.Machine

/-! ## The machine as a whole -/

/-- No command stops the part: each row of `exec` gives a next state, whatever the state it is taken in. -/
theorem exec_completes (c : Instr) (s : State) : ∃ t, exec c s = .next t := by
  cases c <;> exact ⟨_, rfl⟩

theorem step_of_pending_cons (c : Instr) (rest : List Instr) (s : State) :
    step { s with pending := c :: rest } = exec c { s with pending := rest } := rfl

theorem step_of_pending_nil {s : State} (empty : s.pending = []) : step s = .next s := by
  unfold step
  rw [empty]

/-- Settles O1: the queue's front is run on the queue's rest, and an empty queue idles. -/
theorem stepRunsTheFrontCommand : Obligations.StepRunsTheFrontCommand :=
  ⟨step_of_pending_cons, fun _ => step_of_pending_nil⟩

/-- Settles O2: the state that a command completes in is the one whose frame `exec_within` gives, row by row of `writes`. -/
theorem everyCommandWritesOnlyItsParts : Obligations.EveryCommandWritesOnlyItsParts := fun c s =>
  let ⟨t, completes⟩ := exec_completes c s
  ⟨t, completes, exec_within completes⟩

end Sys2Proof.Machine
end
